-- ==== Sys2Proof/Word.lean ====
section
/-! DEFINITION. The word types of HMACC (00_scope.md R6, R7). -/

namespace Sys2Proof

/-- A byte (R6). -/
abbrev Byte := BitVec 8

/-- A word of the register port, and SHA-1's word: `u32`, whose `+` wraps modulo 2^32 (R7). -/
abbrev Word := BitVec 32

/-- A transaction record (30_encoding.md R95), and the width of SEED (10_state.md R34). -/
abbrev DWord := BitVec 64

end Sys2Proof
end

