-- ==== Sys2Proof/Config.lean ====
section
/-! DEFINITION. The implementation parameters of 00_scope.md R5. A parameter marked fixed there is a number here; a
parameter marked OPEN there is an opaque constant: nothing can be proved of its value. -/

namespace Sys2Proof

/-- `DIGITS`: digits of the code. -/
abbrev Config.digits : Nat := 6

/-- `MODULUS` = 10^6: the divisor of step 6. -/
abbrev Config.modulus : Nat := 1000000

/-- `CTR_BYTES`: length of the counter frame. -/
abbrev Config.ctrBytes : Nat := 8

/-- `CTR_LOW_BITS`: challenge bits the frame carries. -/
abbrev Config.ctrLowBits : Nat := 32

/-- `DIGEST_BYTES`: HMAC-SHA1 output length. -/
abbrev Config.digestBytes : Nat := 20

/-- `SHA1_BLOCK`: the SHA-1 block size in bytes, B in HMAC. -/
abbrev Config.sha1Block : Nat := 64

/-- `KEY_MAX`: capacity of the key buffer in bytes. -/
abbrev Config.keyMax : Nat := 64

/-- `CHAL_MAX`: capacity of the challenge buffer in bytes. -/
abbrev Config.chalMax : Nat := 32

/-- `REF_KEY_LEN`: reset value of CTRL.KLEN_REQ. -/
abbrev Config.refKeyLen : Nat := 10

/-- `REF_CHAL_LEN`: reset value of CTRL.CLEN_REQ. -/
abbrev Config.refChalLen : Nat := 6

/-- `BUS_WIDTH`: data width of the register port in bits. -/
abbrev Config.busWidth : Nat := 32

/-- `ADDR_BITS`: byte-offset width of the register window in bits. -/
abbrev Config.addrBits : Nat := 8

/-- `BASE`, OPEN: the platform base address of the window (R22, 20_memory.md R68). Log entry 3. -/
opaque Config.base : Nat

/-- `LAT_MAX`, OPEN: the bound, in cycles, between a command's acceptance and its completion (40_commands.md R112).
The model has no time (70_reset_and_hazards.md R275), so no definition reads it. Log entry 3. -/
opaque Config.latMax : Nat

end Sys2Proof
end

