-- ==== Sys2Proof/Syntax.lean ====
section
/-! DEFINITION. The syntax of HMACC: one constructor of `Instr` per row of spec/opcode_table.json. -/

namespace Sys2Proof

/-- The seven operations a command word decodes to (30_encoding.md R90, 10_state.md R44). -/
inductive Op where
  | nop
  | generate
  | generateSeed
  | parse
  | clear
  | zeroize
  | illegal
  deriving DecidableEq, Repr

/-- The instructions: the command words of CMD (30_encoding.md R91, R93) and the two bus transactions (R95). The table
has three rows for ILLEGAL; the operands of those constructors are the bits of the word that the row leaves open. -/
inductive Instr where
  /-- NOP, word 0x00000000 (40_commands.md R115). -/
  | nop
  /-- GENERATE, word 0x00000001 (R120). -/
  | generate
  /-- GENERATE_SEED, word 0x00000002 (R118). -/
  | generateSeed
  /-- PARSE, word 0x00000003 (R116). -/
  | parse
  /-- CLEAR, word 0x00000004 (R121). -/
  | clear
  /-- ZEROIZE, word 0x00000005 (R122). -/
  | zeroize
  /-- ILLEGAL, the words 0x6 and 0x7: `low` is bit 0 (R123). -/
  | illegalLow (low : BitVec 1)
  /-- ILLEGAL, the words 0x8 to 0xF: `low` is bits 2:0 (R123). -/
  | illegalHigh (low : BitVec 3)
  /-- ILLEGAL, every word whose bits 31:4 are not zero: `op` is bits 3:0 and `rsvd` bits 31:4 (R123). -/
  | illegalWord (op : BitVec 4) (rsvd : BitVec 28)
  /-- RD, a bus read of the word at byte offset `off` (20_memory.md R64). -/
  | rd (off : BitVec 8)
  /-- WR, a bus write of `data` with byte strobes `be` to the word at byte offset `off` (20_memory.md R65). -/
  | wr (off : BitVec 8) (data : Word) (be : BitVec 4)
  deriving DecidableEq, Repr

end Sys2Proof
end

