-- ==== Sys2Proof/WellFormed.lean ====
section
/-! DEFINITION. Which instructions are well formed: those that some word or record of the spec's encoding stands for. -/

namespace Sys2Proof

/-- The port has no address bits 1:0 (20_memory.md R62): only an offset that is a multiple of 4 can be presented. -/
def aligned (off : BitVec 8) : Bool := off.extractLsb' 0 2 == 0

/-- A word of the default ILLEGAL row has a bit of 31:4 set (30_encoding.md R93); a transaction's offset is aligned
(R95). -/
def Instr.wellFormed : Instr → Bool
  | .nop => true
  | .generate => true
  | .generateSeed => true
  | .parse => true
  | .clear => true
  | .zeroize => true
  | .illegalLow _ => true
  | .illegalHigh _ => true
  | .illegalWord _ rsvd => rsvd != 0
  | .rd off => aligned off
  | .wr off _ _ => aligned off

end Sys2Proof
end

