-- ==== Sys2Proof/Decode.lean ====
section
/-! DEFINITION. Decoding and encoding of command words (30_encoding.md R90 to R94) and of bus transaction records
(R95). -/

namespace Sys2Proof

/-- An instruction as bits: a 32-bit command word (R90) or a 64-bit transaction record (R95). -/
inductive Code where
  | command (d : Word)
  | record (r : DWord)
  deriving DecidableEq, Repr

/-- Why a 64-bit value is not a transaction (R95). -/
inductive DecodeError where
  /-- KIND is neither 0x1 nor 0x2. -/
  | invalidKind
  /-- Bits 63:48 are not zero. -/
  | reservedBits
  /-- OFF bits 1:0 are not zero. -/
  | misalignedOffset
  deriving DecidableEq, Repr

/-! ### Command words -/

/-- `DecodeCmd` of R90: the operation of a command word. -/
def decodeOp (d : Word) : Op :=
  if d.extractLsb' 4 28 ≠ 0 then .illegal
  else match (d.extractLsb' 0 4).toNat with
    | 0x0 => .nop
    | 0x1 => .generate
    | 0x2 => .generateSeed
    | 0x3 => .parse
    | 0x4 => .clear
    | 0x5 => .zeroize
    | _ => .illegal

/-- The instruction of a command word, by the rows of the opcode table in their order (R91, R93): the six exact words,
then the two rows of reserved opcodes, then the default row. -/
def decodeCommand (d : Word) : Instr :=
  if d = 0x00000000 then .nop
  else if d = 0x00000001 then .generate
  else if d = 0x00000002 then .generateSeed
  else if d = 0x00000003 then .parse
  else if d = 0x00000004 then .clear
  else if d = 0x00000005 then .zeroize
  else if d &&& 0xFFFFFFFE = 0x00000006 then .illegalLow (d.extractLsb' 0 1)
  else if d &&& 0xFFFFFFF8 = 0x00000008 then .illegalHigh (d.extractLsb' 0 3)
  else .illegalWord (d.extractLsb' 0 4) (d.extractLsb' 4 28)

/-- The operation a command instruction performs; a bus transaction performs none. -/
def Instr.op : Instr → Option Op
  | .nop => some .nop
  | .generate => some .generate
  | .generateSeed => some .generateSeed
  | .parse => some .parse
  | .clear => some .clear
  | .zeroize => some .zeroize
  | .illegalLow _ => some .illegal
  | .illegalHigh _ => some .illegal
  | .illegalWord _ _ => some .illegal
  | .rd _ => none
  | .wr _ _ _ => none

/-- An instruction that performs an operation. PEND keeps the operation only (10_state.md R38), so ILLEGAL is
performed as the word 0x6; every ILLEGAL word performs the same (40_commands.md R123). DEDUCED, safe: log entry 4. -/
def Op.instr : Op → Instr
  | .nop => .nop
  | .generate => .generate
  | .generateSeed => .generateSeed
  | .parse => .parse
  | .clear => .clear
  | .zeroize => .zeroize
  | .illegal => .illegalLow 0

/-! ### Transaction records -/

/-- DATA, bits 31:0 of a record. -/
def recordData (r : DWord) : Word := r.extractLsb' 0 32

/-- OFF, bits 39:32 of a record. -/
def recordOff (r : DWord) : BitVec 8 := r.extractLsb' 32 8

/-- BE, bits 43:40 of a record. -/
def recordBe (r : DWord) : BitVec 4 := r.extractLsb' 40 4

/-- KIND, bits 47:44 of a record. -/
def recordKind (r : DWord) : BitVec 4 := r.extractLsb' 44 4

/-- RSVD, bits 63:48 of a record. -/
def recordRsvd (r : DWord) : BitVec 16 := r.extractLsb' 48 16

/-- The transaction of a record (R95). A read ignores DATA and BE. The order of the refusals is a DESIGN CHOICE, log
entry 10. -/
def decodeRecord (r : DWord) : Except DecodeError Instr :=
  if recordRsvd r ≠ 0 then .error .reservedBits
  else if recordKind r ≠ 1 ∧ recordKind r ≠ 2 then .error .invalidKind
  else if aligned (recordOff r) = false then .error .misalignedOffset
  else if recordKind r = 1 then .ok (.rd (recordOff r))
  else .ok (.wr (recordOff r) (recordData r) (recordBe r))

/-- The decoder, total on every command word and every 64-bit record. -/
def decode : Code → Except DecodeError Instr
  | .command d => .ok (decodeCommand d)
  | .record r => decodeRecord r

/-! ### The encoder, from the same tables -/

/-- The record with the given fields, RSVD 0 (R95). -/
def encodeRecord (kind be : BitVec 4) (off : BitVec 8) (data : Word) : DWord :=
  0#16 ++ kind ++ be ++ off ++ data

/-- The word or record of an instruction. A read has DATA 0 and BE 0xF by convention (R95). -/
def encode : Instr → Code
  | .nop => .command 0x00000000
  | .generate => .command 0x00000001
  | .generateSeed => .command 0x00000002
  | .parse => .command 0x00000003
  | .clear => .command 0x00000004
  | .zeroize => .command 0x00000005
  | .illegalLow low => .command (0x3#31 ++ low)
  | .illegalHigh low => .command (0x1#29 ++ low)
  | .illegalWord op rsvd => .command (rsvd ++ op)
  | .rd off => .record (encodeRecord 0x1 0xF off 0)
  | .wr off data be => .record (encodeRecord 0x2 be off data)

/-! ### The host's view of the decoder -/

/-- The instruction the decoder reads from a row of the opcode table whose bits are `w`: a row of 32 bits is a command
word, a longer one a transaction record. -/
def decodeTableWord (nbits w : Nat) : Option Instr :=
  if nbits ≤ 32 then some (decodeCommand (BitVec.ofNat 32 w))
  else match decodeRecord (BitVec.ofNat 64 w) with
    | .ok i => some i
    | .error _ => none

end Sys2Proof
end

