-- ==== Sys2Proof/Machine/State.lean ====
section
/-! DEFINITION. The state of HMACC: the record of 10_state.md R44, the two ports that a step reads or drives (R41), and
the inputs still to come. -/

namespace Sys2Proof.Machine

/-- CTRL (10_state.md R25). -/
structure Ctrl where
  /-- IE, bit 0: completion interrupt enable. -/
  ie : Bool
  /-- KLEN_CHK, bit 1: enables the key-length policy check. -/
  klenChk : Bool
  /-- CLEN_CHK, bit 2: enables the challenge-length policy check. -/
  clenChk : Bool
  /-- KLEN_REQ, bits 14:8: the key length the policy requires. -/
  klenReq : BitVec 7
  /-- CLEN_REQ, bits 21:16: the challenge length the policy requires. -/
  clenReq : BitVec 6
  deriving DecidableEq, Repr

/-- The stored bits of STATUS (10_state.md R27). BUSY is "PEND is not none" and ERR is "ERRCODE is not 0" (R28, R38),
so neither is stored. -/
structure Status where
  /-- DONE, bit 1. -/
  done : Bool
  /-- OVR, bit 3. -/
  ovr : Bool
  /-- ERRCODE, bits 11:8. -/
  errcode : BitVec 4
  /-- LASTOP, bits 15:12. -/
  lastop : BitVec 4
  deriving DecidableEq, Repr

/-- What can happen at one step (00_scope.md R10, 20_memory.md R70). DESIGN CHOICE, log entry 1. -/
inductive Event where
  /-- The host presents the transaction of this 64-bit record (30_encoding.md R95). -/
  | txn (record : DWord)
  /-- The engine takes its turn: the completion, if a command is busy (40_commands.md R112). -/
  | engine
  /-- rst_n falls (70_reset_and_hazards.md R250). -/
  | rstAssert
  /-- rst_n rises. -/
  | rstRelease
  deriving DecidableEq, Repr

/-- The state of HMACC (10_state.md R44), with its ports (R41) and its inputs. -/
structure State where
  /-- CTRL (R25). -/
  ctrl : Ctrl
  /-- STATUS's stored bits (R27). -/
  status : Status
  /-- PEND: the command being performed (R38). -/
  pend : Option Op
  /-- KEYLEN (R29). -/
  keylen : BitVec 7
  /-- KEY[0..63] (R30). -/
  key : Vector Byte 64
  /-- CHALLEN (R32). -/
  challen : BitVec 6
  /-- CHAL[0..31] (R33). -/
  chal : Vector Byte 32
  /-- SEED (R34). -/
  seed : DWord
  /-- CODE (R35). -/
  code : BitVec 20
  /-- S[0..6), the bytes of CODESTR0 and CODESTR1 (R36). -/
  codestr : Vector Byte 6
  /-- The level of the reset port rst_n (R41): false while reset is asserted. DEDUCED, log entry 7. -/
  rstN : Bool
  /-- The port rdata (R41), valid in the cycle of a read only (20_memory.md R63). DESIGN CHOICE, log entry 2. -/
  rdata : Option Word
  /-- What is still to happen, oldest first: the MODEL's own field. DESIGN CHOICE, log entry 1. -/
  events : List Event
  deriving DecidableEq, Repr

/-- Why the machine stops with a fault. -/
inductive Fault where
  /-- Raised by `finish` if a command's outcome code is one of the reserved codes 8 to 15 (60_exceptions.md R220; 93
  U10: "A model that computed one would have a bug: `fault`"). No meaning gives `finish` such a code. Safe. -/
  | reservedErrcode
  deriving DecidableEq, Repr

/-- Why a step has no meaning. -/
inductive Refusal where
  /-- Raised by an arm of `exec` for an instruction the model does not give a meaning to; no arm is left so. Safe. -/
  | notModelled (mnemonic : String)
  /-- Raised by `execRd` and `execWr` for an offset whose bits 1:0 are not zero (20_memory.md R62: "A model whose
  request carries a byte address with bits 1:0 not zero **refuses** the request"). Safe. -/
  | misaligned
  /-- Raised by `step` for a record that is not a transaction (30_encoding.md R95: "A model's program loader
  **refuses** it"). Safe. -/
  | notATransaction (why : DecodeError)
  deriving DecidableEq, Repr

/-- CTRL after reset: 0x00060A00 (10_state.md R43). -/
def Ctrl.reset : Ctrl where
  ie := false
  klenChk := false
  clenChk := false
  klenReq := BitVec.ofNat 7 Config.refKeyLen
  clenReq := BitVec.ofNat 6 Config.refChalLen

/-- STATUS after reset: 0x00000000 (10_state.md R43). -/
def Status.reset : Status where
  done := false
  ovr := false
  errcode := 0
  lastop := 0

/-- The machine right after reset (10_state.md R43, 70_reset_and_hazards.md R250): rst_n deasserted, no read made, and
no input waiting (log entries 1, 2 and 7). -/
def State.reset : State where
  ctrl := Ctrl.reset
  status := Status.reset
  pend := none
  keylen := 0
  key := Vector.replicate 64 0
  challen := 0
  chal := Vector.replicate 32 0
  seed := 0
  code := 0
  codestr := Vector.replicate 6 0
  rstN := true
  rdata := none
  events := []

end Sys2Proof.Machine
end

