-- ==== Sys2Proof/Machine/Ops.lean ====
section
/-! DEFINITION. The named operations over the state: one update per register, the byte buffers by lanes, the register
window's map, clearing and writing the outputs, and the end of a command: `finish`, and `raise`, HMACC's only form of
an exception (40_commands.md R113, 60_exceptions.md R221). No return from an exception exists (R227). -/

namespace Sys2Proof.Machine

/-- The outcome of a step of HMACC. -/
abbrev Result := Host.Outcome State Fault Refusal

/-! ### One update per register -/

/-- `CTRL <- c`. -/
def State.setCtrl (c : Ctrl) (s : State) : State := { s with ctrl := c }

/-- `STATUS <- st`, its stored bits. -/
def State.setStatus (st : Status) (s : State) : State := { s with status := st }

/-- `PEND <- p`. -/
def State.setPend (p : Option Op) (s : State) : State := { s with pend := p }

/-- `KEYLEN <- v`. -/
def State.setKeylen (v : BitVec 7) (s : State) : State := { s with keylen := v }

/-- `KEY <- v`, all 64 bytes. -/
def State.setKey (v : Vector Byte 64) (s : State) : State := { s with key := v }

/-- `CHALLEN <- v`. -/
def State.setChallen (v : BitVec 6) (s : State) : State := { s with challen := v }

/-- `CHAL <- v`, all 32 bytes. -/
def State.setChal (v : Vector Byte 32) (s : State) : State := { s with chal := v }

/-- `SEED <- v`. -/
def State.setSeed (v : DWord) (s : State) : State := { s with seed := v }

/-- `WriteCode(code, S)` of 40_commands.md R114: CODE and CODESTR are written together (10_state.md R36). -/
def State.writeCode (code : BitVec 20) (str : Vector Byte 6) (s : State) : State :=
  { s with code := code, codestr := str }

/-- The read-data port carries the word of a read. -/
def State.setRdata (v : Word) (s : State) : State := { s with rdata := some v }

/-- The level of rst_n. -/
def State.setRstN (v : Bool) (s : State) : State := { s with rstN := v }

/-- A step begins: the inputs left are `rest`, and rdata is not valid unless this step reads (20_memory.md R63). -/
def State.nextCycle (rest : List Event) (s : State) : State := { s with events := rest, rdata := none }

/-- The same state with other inputs to come. -/
def State.setEvents (evs : List Event) (s : State) : State := { s with events := evs }

/-! ### Byte lanes and strobes (20_memory.md R60, R65) -/

/-- Byte lane `j` of a word: bits `8j+7 : 8j` (R60). -/
def lane (data : Word) (j : Nat) : Byte := data.extractLsb' (8 * j) 8

/-- The word whose lanes 0 to 3 are the given bytes (R60). -/
def lanes (b0 b1 b2 b3 : Byte) : Word :=
  b3.setWidth 32 <<< 24 ||| b2.setWidth 32 <<< 16 ||| b1.setWidth 32 <<< 8 ||| b0.setWidth 32

/-- The byte 0xFF for a set strobe, 0x00 for a clear one. -/
def strobeByte (b : Bool) : Byte := if b then 0xFF else 0x00

/-- The byte mask `M` of the strobes `be` (R65). -/
def strobeMask (be : BitVec 4) : Word :=
  lanes (strobeByte (be.getLsbD 0)) (strobeByte (be.getLsbD 1)) (strobeByte (be.getLsbD 2)) (strobeByte (be.getLsbD 3))

/-- `(old & ~M) | d`, `d = data & M`: the strobed merge of R65. -/
def merge (old data : Word) (be : BitVec 4) : Word :=
  (old &&& ~~~(strobeMask be)) ||| (data &&& strobeMask be)

/-- Byte `4w+j` takes lane `j` of `data` if its strobe is set. -/
def writeLane {n : Nat} (buf : Vector Byte n) (w : Nat) (data : Word) (be : BitVec 4) (j : Nat) : Vector Byte n :=
  if be.getLsbD j then buf.setIfInBounds (4 * w + j) (lane data j) else buf

/-- `for j in 0..3: if be[j] = 1: buf[4w+j] <- data[8j+7:8j]` (R65). -/
def writeWord {n : Nat} (buf : Vector Byte n) (w : Nat) (data : Word) (be : BitVec 4) : Vector Byte n :=
  writeLane (writeLane (writeLane (writeLane buf w data be 0) w data be 1) w data be 2) w data be 3

/-- Word `w` of a byte buffer, little-endian by lanes (R60). -/
def readWord {n : Nat} (buf : Vector Byte n) (w : Nat) : Word :=
  lanes (buf.getD (4 * w) 0) (buf.getD (4 * w + 1) 0) (buf.getD (4 * w + 2) 0) (buf.getD (4 * w + 3) 0)

/-! ### The register window (10_state.md R22) -/

/-- The registers of the window. -/
inductive Reg where
  | id
  | param
  | ctrl
  | cmd
  | status
  | keylen
  | challen
  | seedLo
  | seedHi
  | code
  | codestr0
  | codestr1
  | key (w : BitVec 4)
  | chal (w : BitVec 3)
  | reserved
  deriving DecidableEq, Repr

/-- The register at a byte offset. Only the offset bits 7:2 are decoded (20_memory.md R68). -/
def regAt (off : BitVec 8) : Reg :=
  match (off.extractLsb' 2 6).toNat with
  | 0 => .id
  | 1 => .param
  | 2 => .ctrl
  | 3 => .cmd
  | 4 => .status
  | 5 => .keylen
  | 6 => .challen
  | 8 => .seedLo
  | 9 => .seedHi
  | 10 => .code
  | 11 => .codestr0
  | 12 => .codestr1
  | _ =>
    if off.extractLsb' 6 2 = 0b01 then .key (off.extractLsb' 2 4)
    else if off.extractLsb' 5 3 = 0b100 then .chal (off.extractLsb' 2 3)
    else .reserved

/-- The bus address of an offset: the window stands at BASE (R22, R68). -/
def busAddress (off : BitVec 8) : Nat := Config.base + off.toNat

/-- The constant that ID reads: "HMAC" (10_state.md R23). -/
def idWord : Word := 0x484D4143

/-- The constant that PARAM reads: DIGITS in 19:16, CHAL_MAX in 15:8, KEY_MAX in 7:0 (10_state.md R24). -/
def paramWord : Word :=
  BitVec.ofNat 32 Config.digits <<< 16 ||| BitVec.ofNat 32 Config.chalMax <<< 8 ||| BitVec.ofNat 32 Config.keyMax

/-! ### Outputs -/

/-- `ClearOutputs()` (40_commands.md R111): CODE is 0 and all six S bytes are 0x00. -/
def State.clearOutputs (s : State) : State := s.writeCode 0 (Vector.replicate 6 0)

/-- What ZEROIZE erases (40_commands.md R122). -/
def State.zeroizeAll (s : State) : State :=
  ((((((s.setKey (Vector.replicate 64 0)).setKeylen 0).setChal (Vector.replicate 32 0)).setChallen 0).setSeed
    0).clearOutputs)

/-! ### The end of a command -/

/-- The error kinds of 60_exceptions.md R220. Two of them are allocated and never raised (R224). -/
inductive CommandError where
  | parseError
  | keyError
  | algorithmUnavailable
  | signatureError
  | illegalCommand
  | keyLengthPolicy
  | challengeLengthPolicy
  deriving DecidableEq, Repr

/-- `code(E)` of R220. -/
def CommandError.code : CommandError → BitVec 4
  | .parseError => 1
  | .keyError => 2
  | .algorithmUnavailable => 3
  | .signatureError => 4
  | .illegalCommand => 5
  | .keyLengthPolicy => 6
  | .challengeLengthPolicy => 7

/-- The state the epilogue leaves: ERRCODE is the outcome, PEND is none, DONE is 1 (40_commands.md R113). -/
def State.finished (err : BitVec 4) (s : State) : State :=
  (s.setStatus { s.status with errcode := err, done := true }).setPend none

/-- `Finish(err)`, the completion epilogue (R113). A reserved code 8 to 15 would be a fault (93 U10; log entry 8). -/
def finish (err : BitVec 4) (s : State) : Result :=
  if 8 ≤ err.toNat then .fault .reservedErrcode else .next (s.finished err)

/-- `raise E` (00_scope.md R9, 60_exceptions.md R221): the command ends here with the code of E and the epilogue;
nothing else is saved or changed. -/
def raise (e : CommandError) (s : State) : Result := finish e.code s

/-! ### Reset -/

/-- rst_n is low: every piece of state takes its reset value; a command in flight is abandoned, with no completion
(70_reset_and_hazards.md R250). The inputs still to come are the environment's and stay. DEDUCED, log
entry 7. -/
def State.resetAsserted (s : State) : State := (State.reset.setRstN false).setEvents s.events

end Sys2Proof.Machine
end

