-- ==== Sys2Proof/Machine/Flags.lean ====
section
/-! DEFINITION. The flags: the STATUS bits (10_state.md R27, R40), W1C (20_memory.md R66), the interrupt
(60_exceptions.md R230), the CTRL and STATUS words, and the checks of 40_commands.md R114. HMACC has no arithmetic
condition codes. -/

namespace Sys2Proof.Machine

/-- A flag as a word's bit 0. -/
def flagBit (b : Bool) : Word := if b then 1 else 0

/-- STATUS.BUSY: PEND is not none (10_state.md R38). -/
def State.busy (s : State) : Bool := s.pend.isSome

/-- STATUS.ERR: ERRCODE is not 0 (10_state.md R28). -/
def State.err (s : State) : Bool := s.status.errcode != 0

/-- The port irq: a level, `CTRL.IE & STATUS.DONE` (60_exceptions.md R230). -/
def State.irq (s : State) : Bool := s.ctrl.ie && s.status.done

/-- A write is dropped: `STATUS.OVR <- 1` (70_reset_and_hazards.md R260 to R262). -/
def State.dropWrite (s : State) : State := s.setStatus { s.status with ovr := true }

/-- The W1C bits DONE and OVR under a write of `d` (20_memory.md R66): a 1 clears, a 0 leaves. -/
def Status.w1c (d : Word) (st : Status) : Status :=
  { st with done := st.done && !d.getLsbD 1, ovr := st.ovr && !d.getLsbD 3 }

/-- What acceptance writes into STATUS (40_commands.md R110): LASTOP, DONE 0, ERRCODE 0. OVR stays. -/
def Status.accepted (d : Word) (st : Status) : Status :=
  { st with lastop := d.extractLsb' 0 4, done := false, errcode := 0 }

/-- The word CTRL reads (20_memory.md R64). -/
def ctrlWord (c : Ctrl) : Word :=
  c.clenReq.setWidth 32 <<< 16 ||| c.klenReq.setWidth 32 <<< 8 ||| flagBit c.clenChk <<< 2 ||| flagBit c.klenChk <<< 1
    ||| flagBit c.ie

/-- The fields of CTRL in a word; the reserved bits are dropped (20_memory.md R65, 10_state.md R25). -/
def ctrlOfWord (c : Word) : Ctrl where
  ie := c.getLsbD 0
  klenChk := c.getLsbD 1
  clenChk := c.getLsbD 2
  klenReq := c.extractLsb' 8 7
  clenReq := c.extractLsb' 16 6

/-- The word STATUS reads (20_memory.md R64). -/
def statusWord (s : State) : Word :=
  s.status.lastop.setWidth 32 <<< 12 ||| s.status.errcode.setWidth 32 <<< 8 ||| flagBit s.status.ovr <<< 3
    ||| flagBit s.err <<< 2 ||| flagBit s.status.done <<< 1 ||| flagBit s.busy

/-- `KeyPolicyFail` (40_commands.md R114, 60_exceptions.md R222). -/
def State.keyPolicyFail (s : State) : Bool := s.ctrl.klenChk && s.keylen != s.ctrl.klenReq

/-- `ChalPolicyFail` (40_commands.md R114, 60_exceptions.md R222). -/
def State.chalPolicyFail (s : State) : Bool := s.ctrl.clenChk && s.challen != s.ctrl.clenReq

/-- `KeyUnusable` (40_commands.md R114, 60_exceptions.md R223): KEYLEN is 0 or above KEY_MAX. -/
def State.keyUnusable (s : State) : Bool := s.keylen == 0 || decide (Config.keyMax < s.keylen.toNat)

/-- Whether a CTRL write while busy asks for a change of a policy field (70_reset_and_hazards.md R261). -/
def policyChanged (c : Ctrl) (d : Word) (be : BitVec 4) : Bool :=
  (be.getLsbD 0 && (d.getLsbD 1 != c.klenChk || d.getLsbD 2 != c.clenChk))
    || (be.getLsbD 1 && d.extractLsb' 8 7 != c.klenReq)
    || (be.getLsbD 2 && d.extractLsb' 16 6 != c.clenReq)

end Sys2Proof.Machine
end

