-- ==== Sys2Proof/Machine/Bus.lean ====
section
/-! DEFINITION. The meanings of the bus transactions: RD (20_memory.md R64) and WR (R65), with the acceptance of a
command word (40_commands.md R110) and the writes while busy (70_reset_and_hazards.md R260 to R262). -/

namespace Sys2Proof.Machine

/-- `BusRead(off)` (R64). -/
def busRead (off : BitVec 8) (s : State) : Word :=
  match regAt off with
  | .id => idWord
  | .param => paramWord
  | .ctrl => ctrlWord s.ctrl
  | .cmd => 0
  | .status => statusWord s
  | .keylen => s.keylen.setWidth 32
  | .challen => s.challen.setWidth 32
  | .seedLo => s.seed.extractLsb' 0 32
  | .seedHi => s.seed.extractLsb' 32 32
  | .code => s.code.setWidth 32
  | .codestr0 => readWord s.codestr 0
  | .codestr1 => readWord s.codestr 1
  | .key _ => 0
  | .chal w => readWord s.chal w.toNat
  | .reserved => 0

/-- Whether acceptance of this operation clears the outputs (40_commands.md R110). -/
def Op.clearsOutputs : Op → Bool
  | .nop => false
  | .generate => true
  | .generateSeed => true
  | .parse => false
  | .clear => true
  | .zeroize => false
  | .illegal => false

/-- `Accept(d)` (40_commands.md R110). -/
def accept (d : Word) (s : State) : State :=
  let s := s.setStatus (s.status.accepted d)
  let s := if Op.clearsOutputs (decodeOp d) then s.clearOutputs else s
  s.setPend (some (decodeOp d))

/-- `CtrlWriteWhileBusy(d, be)` (70_reset_and_hazards.md R261): IE only; an attempt to change a policy field sets
OVR. -/
def ctrlWriteWhileBusy (d : Word) (be : BitVec 4) (s : State) : State :=
  let s' := if be.getLsbD 0 then s.setCtrl { s.ctrl with ie := d.getLsbD 0 } else s
  if policyChanged s.ctrl d be then s'.dropWrite else s'

/-- A write to an input register: dropped with OVR while busy (70_reset_and_hazards.md R260), else done. -/
def inputWrite (f : State → State) (s : State) : State := if s.busy then s.dropWrite else f s

/-- `BusWrite(off, data, be)` (R65). -/
def busWrite (off : BitVec 8) (data : Word) (be : BitVec 4) (s : State) : State :=
  let d := data &&& strobeMask be
  if be = 0 then s
  else match regAt off with
    | .ctrl =>
      if s.busy then ctrlWriteWhileBusy d be s else s.setCtrl (ctrlOfWord (merge (ctrlWord s.ctrl) data be))
    | .cmd => if be.getLsbD 0 then (if s.busy then s.dropWrite else accept d s) else s
    | .status => if be.getLsbD 0 then s.setStatus (s.status.w1c d) else s
    | .keylen => inputWrite (fun s => if be.getLsbD 0 then s.setKeylen (data.extractLsb' 0 7) else s) s
    | .challen => inputWrite (fun s => if be.getLsbD 0 then s.setChallen (data.extractLsb' 0 6) else s) s
    | .seedLo => inputWrite (fun s => s.setSeed (s.seed.extractLsb' 32 32 ++ merge (s.seed.extractLsb' 0 32) data be)) s
    | .seedHi => inputWrite (fun s => s.setSeed (merge (s.seed.extractLsb' 32 32) data be ++ s.seed.extractLsb' 0 32)) s
    | .key w => inputWrite (fun s => s.setKey (writeWord s.key w.toNat data be)) s
    | .chal w => inputWrite (fun s => s.setChal (writeWord s.chal w.toNat data be)) s
    | .id => s
    | .param => s
    | .code => s
    | .codestr0 => s
    | .codestr1 => s
    | .reserved => s

/-- RD: the word of the offset on rdata, nothing else (R64). While rst_n is low a read returns 0
(70_reset_and_hazards.md R250). A misaligned offset is refused (R62). -/
def execRd (off : BitVec 8) (s : State) : Result :=
  if aligned off = false then .refused .misaligned
  else .next (s.setRdata (if s.rstN then busRead off s else 0))

/-- WR (R65). While rst_n is low a write is ignored (70_reset_and_hazards.md R250). A misaligned offset is refused
(R62). -/
def execWr (off : BitVec 8) (data : Word) (be : BitVec 4) (s : State) : Result :=
  if aligned off = false then .refused .misaligned
  else .next (if s.rstN then busWrite off data be s else s)

end Sys2Proof.Machine
end

