-- ==== Sys2Proof/Machine/Operands.lean ====
section
/-! DEFINITION. The operands of the commands (30_encoding.md R92, 40_commands.md R114) and the big-endian helpers of
00_scope.md R8. -/

namespace Sys2Proof.Machine

/-- `Secret`: the bytes KEY[0..KEYLEN) (10_state.md R30). -/
def State.secret (s : State) : List Byte := s.key.toList.take s.keylen.toNat

/-- `ChallengeText`: the bytes CHAL[0..min(CHALLEN, CHAL_MAX)) (10_state.md R33, 40_commands.md R114). -/
def State.challengeText (s : State) : List Byte := s.chal.toList.take (min s.challen.toNat Config.chalMax)

/-- `b[i]` of a byte sequence (00_scope.md R6). -/
def byteAt (b : List Byte) (i : Nat) : Byte := b.getD i 0

/-- `be32(b, i)`: the bytes `b[i..i+4)` as a u32, most significant first (00_scope.md R8). -/
def be32 (b : List Byte) (i : Nat) : Word :=
  (byteAt b i).setWidth 32 <<< 24 ||| (byteAt b (i + 1)).setWidth 32 <<< 16 ||| (byteAt b (i + 2)).setWidth 32 <<< 8
    ||| (byteAt b (i + 3)).setWidth 32

/-- `be_bytes_4(v)`: the bytes of a u32, most significant first (00_scope.md R8). -/
def beBytes4 (v : Word) : List Byte :=
  [v.extractLsb' 24 8, v.extractLsb' 16 8, v.extractLsb' 8 8, v.extractLsb' 0 8]

/-- `be_bytes_8(v)`: the bytes of a u64, most significant first (00_scope.md R8). -/
def beBytes8 (v : DWord) : List Byte := beBytes4 (v.extractLsb' 32 32) ++ beBytes4 (v.extractLsb' 0 32)

end Sys2Proof.Machine
end

