-- ==== Sys2Proof/Machine/Sha1.lean ====
section
/-! DEFINITION. SHA-1 (42_hmac_sha1.md R165 to R173). -/

namespace Sys2Proof.Machine

/-- Five words: the hash H0 to H4, and the working variables a to e (R170, R172). -/
structure Sha1Vars where
  a : Word
  b : Word
  c : Word
  d : Word
  e : Word
  deriving DecidableEq, Repr

/-- The initial hash (R170). -/
def sha1Init : Sha1Vars where
  a := 0x67452301
  b := 0xEFCDAB89
  c := 0x98BADCFE
  d := 0x10325476
  e := 0xC3D2E1F0

/-- `f_t` of R168. -/
def sha1F (t : Nat) (x y z : Word) : Word :=
  if t < 20 then (x &&& y) ^^^ (~~~x &&& z)
  else if t < 40 then x ^^^ y ^^^ z
  else if t < 60 then (x &&& y) ^^^ (x &&& z) ^^^ (y &&& z)
  else x ^^^ y ^^^ z

/-- `K_t` of R168. -/
def sha1K (t : Nat) : Word :=
  if t < 20 then 0x5A827999
  else if t < 40 then 0x6ED9EBA1
  else if t < 60 then 0x8F1BBCDC
  else 0xCA62C1D6

/-- One round of R172. -/
def sha1Round (v : Sha1Vars) (t : Nat) (w : Word) : Sha1Vars where
  a := v.a.rotateLeft 5 + sha1F t v.b v.c v.d + v.e + sha1K t + w
  b := v.a
  c := v.b.rotateLeft 30
  d := v.c
  e := v.d

/-- The rounds from `t` on, over the schedule words left. -/
def sha1Rounds : List Word → Nat → Sha1Vars → Sha1Vars
  | [], _, v => v
  | w :: ws, t, v => sha1Rounds ws (t + 1) (sha1Round v t w)

/-- The next `n` schedule words (R171). The list holds the words so far, the latest first, so W[t-3], W[t-8], W[t-14]
and W[t-16] stand at 2, 7, 13 and 15. -/
def sha1Extend : Nat → List Word → List Word
  | 0, ws => ws
  | n + 1, ws =>
    sha1Extend n ((ws.getD 2 0 ^^^ ws.getD 7 0 ^^^ ws.getD 13 0 ^^^ ws.getD 15 0).rotateLeft 1 :: ws)

/-- The 16 words of a block, read big-endian (R167). -/
def sha1BlockWords (block : List Byte) : List Word := (List.range 16).map fun t => be32 block (4 * t)

/-- The message schedule W[0] to W[79] of a block (R171). -/
def sha1Schedule (block : List Byte) : List Word := (sha1Extend 64 (sha1BlockWords block).reverse).reverse

/-- The sum of two hashes, word by word, each modulo 2^32 (R172). -/
def sha1Add (h v : Sha1Vars) : Sha1Vars where
  a := h.a + v.a
  b := h.b + v.b
  c := h.c + v.c
  d := h.d + v.d
  e := h.e + v.e

/-- The compression of one block (R172). -/
def sha1Compress (h : Sha1Vars) (block : List Byte) : Sha1Vars :=
  sha1Add h (sha1Rounds (sha1Schedule block) 0 h)

/-- The padding `m || 0x80 || 0x00^k || be_bytes_8(8L)` (R166): `k` is the least with `(L + 1 + k) mod 64 = 56`. -/
def sha1Pad (m : List Byte) : List Byte :=
  m ++ [0x80] ++ List.replicate ((119 - m.length % 64) % 64) 0 ++ beBytes8 (BitVec.ofNat 64 (8 * m.length))

/-- The 64-byte blocks of a padded message, in order (R167). -/
def sha1Blocks (padded : List Byte) : List (List Byte) :=
  (List.range (padded.length / Config.sha1Block)).map fun i =>
    (padded.drop (Config.sha1Block * i)).take Config.sha1Block

/-- The output bytes of a hash (R173). -/
def sha1Output (h : Sha1Vars) : List Byte :=
  beBytes4 h.a ++ beBytes4 h.b ++ beBytes4 h.c ++ beBytes4 h.d ++ beBytes4 h.e

/-- `SHA1(m)` (R165). -/
def sha1 (m : List Byte) : List Byte := sha1Output ((sha1Blocks (sha1Pad m)).foldl sha1Compress sha1Init)

end Sys2Proof.Machine
end

