-- ==== Sys2Proof/Machine/Code.lean ====
section
/-! DEFINITION. Steps 2 to 7: the counter frame and HMAC-SHA1 (42_hmac_sha1.md), dynamic truncation and formatting
(43_truncate_format.md), and `CodeFromSeed` (40_commands.md R114). -/

namespace Sys2Proof.Machine

/-- `CounterFrame(seed)` (42_hmac_sha1.md R162): four zero bytes, then SEED[31:0] big-endian. -/
def counterFrame (seed : DWord) : List Byte := [0x00, 0x00, 0x00, 0x00] ++ beBytes4 (seed.setWidth 32)

/-- The 64-byte `K0` of R180. The first case is never taken in HMACC (R184). -/
def hmacKeyBlock (k : List Byte) : List Byte :=
  if Config.sha1Block < k.length then sha1 k ++ List.replicate (Config.sha1Block - Config.digestBytes) 0
  else k ++ List.replicate (Config.sha1Block - k.length) 0

/-- A byte sequence with every byte XORed with a pad byte. -/
def xorPad (k : List Byte) (p : Byte) : List Byte := k.map fun b => b ^^^ p

/-- The inner hash of R180. -/
def hmacInner (k m : List Byte) : List Byte := sha1 (xorPad (hmacKeyBlock k) 0x36 ++ m)

/-- `HMAC_SHA1(K, m)` (R180). -/
def hmacSha1 (k m : List Byte) : List Byte := sha1 (xorPad (hmacKeyBlock k) 0x5C ++ hmacInner k m)

/-- The offset: the low four bits of digest byte 19 (43_truncate_format.md R200). -/
def truncOffset (digest : List Byte) : Nat := (byteAt digest 19 &&& 0x0F).toNat

/-- The window read at the offset, big-endian, its sign bit cleared (R201, R202). -/
def truncMasked (digest : List Byte) : Word := be32 digest (truncOffset digest) &&& 0x7FFFFFFF

/-- `Truncate(digest)` (R203). -/
def truncate (digest : List Byte) : BitVec 20 := BitVec.ofNat 20 ((truncMasked digest).toNat % Config.modulus)

/-- The ASCII digit of 10^k in a code (R205). -/
def digitAt (code : BitVec 20) (k : Nat) : Byte := 0x30 + BitVec.ofNat 8 (code.toNat / 10 ^ k % 10)

/-- `FormatCode(code)` (R205): S[0] is the most significant digit. -/
def formatCode (code : BitVec 20) : Vector Byte 6 :=
  #v[digitAt code 5, digitAt code 4, digitAt code 3, digitAt code 2, digitAt code 1, digitAt code 0]

/-- The code of `CodeFromSeed(K, seed)` (40_commands.md R114); its string is `formatCode` of it. -/
def codeFromSeed (k : List Byte) (seed : DWord) : BitVec 20 := truncate (hmacSha1 k (counterFrame seed))

/-- `(code, S) <- CodeFromSeed(K, seed); WriteCode(code, S)` (40_commands.md R114). -/
def State.writeCodeOf (k : List Byte) (seed : DWord) (s : State) : State :=
  s.writeCode (codeFromSeed k seed) (formatCode (codeFromSeed k seed))

end Sys2Proof.Machine
end

