-- ==== Sys2Proof/Machine/Parse.lean ====
section
/-! DEFINITION. Step 1: the challenge parse (41_parse.md). -/

namespace Sys2Proof.Machine

/-- An ASCII digit '0' to '9' (41_parse.md R140). -/
def isDigit (b : Byte) : Bool := decide (0x30 ≤ b.toNat) && decide (b.toNat ≤ 0x39)

/-- The loop `acc <- acc * 10 + (t[j] - 0x30)` with an unbounded accumulator (R140, R146); none at the first byte that
is not a digit. -/
def parseDigits : List Byte → Nat → Option Nat
  | [], acc => some acc
  | b :: rest, acc => if isDigit b then parseDigits rest (acc * 10 + (b.toNat - 0x30)) else none

/-- The sign of the text and what follows it (R140): '-' is 0x2D and '+' is 0x2B. -/
def splitSign : List Byte → Bool × List Byte
  | [] => (false, [])
  | b :: rest => if b = 0x2D then (true, rest) else if b = 0x2B then (false, rest) else (false, b :: rest)

/-- The value of an accumulator with its sign. -/
def signedValue (neg : Bool) (acc : Nat) : Int := if neg then -(acc : Int) else acc

/-- `v` lies outside s64 (R142). -/
def outsideS64 (v : Int) : Bool := decide (v < -2 ^ 63) || decide (2 ^ 63 - 1 < v)

/-- `ParseChallenge(t, n)` (R140); none stands for `(false, _)`, a ParseError. The value is stored as its two's
complement (R144). -/
def parseChallenge (t : List Byte) (n : Nat) : Option DWord :=
  if n = 0 ∨ Config.chalMax < n then none
  else if (splitSign t).2 = [] then none
  else match parseDigits (splitSign t).2 0 with
    | none => none
    | some acc =>
      if outsideS64 (signedValue (splitSign t).1 acc) then none
      else some (BitVec.ofInt 64 (signedValue (splitSign t).1 acc))

end Sys2Proof.Machine
end

