-- ==== Sys2Proof/Machine/Commands.lean ====
section
/-! DEFINITION. The meanings of the command words: `Perform` of 40_commands.md, the engine's completion (R112). The
acceptance of a command word (R110) is part of the meaning of WR (Machine/Bus.lean): log entry 6. -/

namespace Sys2Proof.Machine

/-- NOP (R115). -/
def execNop (s : State) : Result := finish 0 s

/-- PARSE (R116). -/
def execParse (s : State) : Result :=
  if s.chalPolicyFail then raise .challengeLengthPolicy s
  else match parseChallenge s.challengeText s.challen.toNat with
    | none => raise .parseError s
    | some v => finish 0 (s.setSeed v)

/-- GENERATE_SEED (R118). -/
def execGenerateSeed (s : State) : Result :=
  if s.keyPolicyFail then raise .keyLengthPolicy s
  else if s.keyUnusable then raise .keyError s
  else finish 0 (s.writeCodeOf s.secret s.seed)

/-- GENERATE (R120), the checks in the order of 60_exceptions.md R225. A key error comes after SEED is written. -/
def execGenerate (s : State) : Result :=
  if s.keyPolicyFail then raise .keyLengthPolicy s
  else if s.chalPolicyFail then raise .challengeLengthPolicy s
  else match parseChallenge s.challengeText s.challen.toNat with
    | none => raise .parseError s
    | some v =>
      if s.keyUnusable then raise .keyError (s.setSeed v)
      else finish 0 ((s.setSeed v).writeCodeOf s.secret v)

/-- CLEAR (R121): the outputs were cleared at acceptance. -/
def execClear (s : State) : Result := finish 0 s

/-- ZEROIZE (R122). -/
def execZeroize (s : State) : Result := finish 0 s.zeroizeAll

/-- ILLEGAL, the words 0x6 and 0x7 (R123). -/
def execIllegalLow (s : State) : Result := raise .illegalCommand s

/-- ILLEGAL, the words 0x8 to 0xF (R123). -/
def execIllegalHigh (s : State) : Result := raise .illegalCommand s

/-- ILLEGAL, every word with bits 31:4 not zero (R123). -/
def execIllegalWord (s : State) : Result := raise .illegalCommand s

end Sys2Proof.Machine
end

