-- ==== Sys2Proof/Machine/Dispatch.lean ====
section
/-! DEFINITION. One arm per instruction. -/

namespace Sys2Proof.Machine

def exec (i : Instr) (s : State) : Host.Outcome State Fault Refusal :=
  match i with
  | .nop => Sys2Proof.Machine.execNop s
  | .generate => Sys2Proof.Machine.execGenerate s
  | .generateSeed => Sys2Proof.Machine.execGenerateSeed s
  | .parse => Sys2Proof.Machine.execParse s
  | .clear => Sys2Proof.Machine.execClear s
  | .zeroize => Sys2Proof.Machine.execZeroize s
  | .illegalLow _ => Sys2Proof.Machine.execIllegalLow s
  | .illegalHigh _ => Sys2Proof.Machine.execIllegalHigh s
  | .illegalWord _ _ => Sys2Proof.Machine.execIllegalWord s
  | .rd off => Sys2Proof.Machine.execRd off s
  | .wr off data be => Sys2Proof.Machine.execWr off data be s

end Sys2Proof.Machine
end

