-- ==== Sys2Proof/Machine/Fetch.lean ====
section
/-! DEFINITION. What the next step is: the next input, the engine's turn, or nothing (20_memory.md R70, 40_commands.md
R112). HMACC fetches no instructions (10_state.md R21); a bus transaction comes from the host's records (30_encoding.md
R95), a command from PEND, where acceptance put it. -/

namespace Sys2Proof.Machine

/-- What a step does. -/
inductive Turn where
  /-- An agent performs an instruction, from the state given. -/
  | run (i : Instr) (s : State)
  /-- No instruction is performed; this is the next state. -/
  | pass (s : State)
  /-- The input is not one the port can be given. -/
  | refuse (r : Refusal)
  deriving DecidableEq, Repr

/-- The engine's turn: the completion of the command in PEND, its only enabled step (40_commands.md R112); nothing
while no command is busy or rst_n is low. -/
def engineTurn (s : State) : Turn :=
  match s.rstN, s.pend with
  | true, some op => .run op.instr s
  | _, _ => .pass s

/-- The turn of the host with a record (30_encoding.md R95). -/
def hostTurn (r : DWord) (s : State) : Turn :=
  match decodeRecord r with
  | .ok i => .run i s
  | .error e => .refuse (.notATransaction e)

/-- Whose turn it is, from the inputs still to come; `s` stands at the beginning of the step. With no input left the
engine takes its turn, so that a command accepted last is completed too (R112, 70_reset_and_hazards.md R271). -/
def turnOf (s : State) : Turn :=
  match s.events with
  | [] => engineTurn (s.nextCycle [])
  | .engine :: rest => engineTurn (s.nextCycle rest)
  | .txn r :: rest => hostTurn r (s.nextCycle rest)
  | .rstAssert :: rest => .pass (s.nextCycle rest).resetAsserted
  | .rstRelease :: rest => .pass ((s.nextCycle rest).setRstN true)

/-- A command word where the engine takes its next command from: accepted (40_commands.md R110) out of reset, the
engine's turn next. Log entry 5. -/
def placeCommand (d : Word) (s : State) : State :=
  (accept d (s.setRstN true)).setEvents (.engine :: s.events)

/-- A record where the host takes its next transaction from. Log entry 5. -/
def placeRecord (r : DWord) (s : State) : State := s.setEvents (.txn r :: s.events)

end Sys2Proof.Machine
end

