-- ==== Sys2Proof/Machine/Step.lean ====
section
/-! DEFINITION. One step of HMACC: one host step, one engine step or one reset event (20_memory.md R63, R70). -/

namespace Sys2Proof.Machine

/-- One step. -/
def step (s : State) : Host.Outcome State Fault Refusal :=
  match turnOf s with
  | .run i s' => exec i s'
  | .pass s' => .next s'
  | .refuse r => .refused r

/-- `s` with a row's instruction as the next one that `step` runs: a row of 32 bits is a command word, a longer one a
transaction record. Log entry 5. -/
def State.withFetchWord (s : State) (nbits w : Nat) : State :=
  if nbits ≤ 32 then placeCommand (BitVec.ofNat 32 w) s else placeRecord (BitVec.ofNat 64 w) s

end Sys2Proof.Machine
end

