-- ==== Sys2Proof/Machine/Assembler.lean ====
section
/-! DEFINITION. The assembler notation of host programs (30_encoding.md R96 to R98): names of offsets, transactions as
records, host programs with their POLL loops, and the expansions of the pseudo-instructions. Machine/Program.lean says
how the host performs a program. Log entry 12. -/

namespace Sys2Proof.Machine

/-- The byte offset a register's name stands for (R96, 10_state.md R22); the reserved offsets have no name. -/
def Reg.offset : Reg → Option (BitVec 8)
  | .id => some 0x00
  | .param => some 0x04
  | .ctrl => some 0x08
  | .cmd => some 0x0C
  | .status => some 0x10
  | .keylen => some 0x14
  | .challen => some 0x18
  | .seedLo => some 0x20
  | .seedHi => some 0x24
  | .code => some 0x28
  | .codestr0 => some 0x2C
  | .codestr1 => some 0x30
  | .key w => some (0b01#2 ++ w ++ 0b00#2)
  | .chal w => some (0b100#3 ++ w ++ 0b00#2)
  | .reserved => none

/-- `WR <off>, <data>, be=<mask>` (R96). -/
def asmWrBe (off : BitVec 8) (data : Word) (be : BitVec 4) : DWord := encodeRecord 0x2 be off data

/-- `WR <off>, <data>` (R96): every lane strobed. -/
def asmWr (off : BitVec 8) (data : Word) : DWord := asmWrBe off data 0xF

/-- `RD <off>` (R96). An assertion on the value read is the harness's and encodes as the plain read. -/
def asmRd (off : BitVec 8) : DWord := encodeRecord 0x1 0xF off 0

/-- The opcode of a command's mnemonic (R91); ILLEGAL is not written as a mnemonic (R98). -/
def Op.opcode : Op → Option (BitVec 4)
  | .nop => some 0x0
  | .generate => some 0x1
  | .generateSeed => some 0x2
  | .parse => some 0x3
  | .clear => some 0x4
  | .zeroize => some 0x5
  | .illegal => none

/-- One item of a host program: a transaction (R95), or the loop of a POLL (R97). -/
inductive HostItem where
  /-- The transaction of a record. -/
  | txn (record : DWord)
  /-- `RD <off>`, repeated until `(rdata & <mask>) = <value>`. -/
  | poll (off : BitVec 8) (mask value : Word)
  deriving DecidableEq, Repr

/-- The record an item issues: a POLL issues reads of its offset. -/
def HostItem.record : HostItem → DWord
  | .txn r => r
  | .poll off _ _ => asmRd off

/-- The repeat mark `*` of an item (R97). -/
def HostItem.repeats : HostItem → Bool
  | .txn _ => false
  | .poll _ _ _ => true

/-- A program's encoding (R97): its records in order, each with its repeat mark. -/
def encodeProgram (items : List HostItem) : List (DWord × Bool) := items.map fun i => (i.record, i.repeats)

/-- A program of transactions only. -/
def transactions (records : List DWord) : List HostItem := records.map .txn

/-- `CMD <mnemonic>` (R97): `WR CMD, <OP of mnemonic>`. -/
def asmCmd (op : Op) : List DWord :=
  match Op.opcode op with
  | some c => [asmWr 0x0C (c.setWidth 32)]
  | none => []

/-- `POLL <off>, <mask>, <value>` (R97). -/
def asmPoll (off : BitVec 8) (mask value : Word) : List HostItem := [.poll off mask value]

/-- The condition a POLL waits for (R97): `(rdata & mask) = value`. -/
def pollHolds (rdata mask value : Word) : Bool := rdata &&& mask == value

/-- `WAITDONE` (R97): `POLL STATUS, 0x3, 0x2`. -/
def asmWaitDone : List HostItem := asmPoll 0x10 0x3 0x2

/-- Word `w` of a byte string, lanes past its end 0x00 (R97). -/
def stringWord (bytes : List Byte) (w : Nat) : Word :=
  lanes (bytes.getD (4 * w) 0) (bytes.getD (4 * w + 1) 0) (bytes.getD (4 * w + 2) 0) (bytes.getD (4 * w + 3) 0)

/-- Writes of a byte string to the words from `base` on (R97). In the last word the lanes past the string's end are
written with 0x00, as the table says and program P3 of 95_test_vectors.md does, although R97's text says that the bytes
at index n and above stay. DESIGN CHOICE, log entry 13. -/
def asmLoad (base : Nat) (bytes : List Byte) : List DWord :=
  (List.range ((bytes.length + 3) / 4)).map fun w => asmWr (BitVec.ofNat 8 (base + 4 * w)) (stringWord bytes w)

/-- `LOADKEY "<bytes>"` (R97), at most 64 bytes. -/
def asmLoadKey (bytes : List Byte) : List DWord :=
  asmWr 0x14 (BitVec.ofNat 32 bytes.length) :: asmLoad 0x40 bytes

/-- `LOADCHAL "<bytes>"` (R97), at most 32 bytes. -/
def asmLoadChal (bytes : List Byte) : List DWord :=
  asmWr 0x18 (BitVec.ofNat 32 bytes.length) :: asmLoad 0x80 bytes

/-- `ACKDONE` (R97): `WR STATUS, 0x2`. -/
def asmAckDone : List DWord := [asmWr 0x10 0x2]

/-- The ASCII bytes of a string literal (R97). -/
def asciiBytes (text : String) : List Byte := text.toList.map fun c => BitVec.ofNat 8 c.toNat

/-- The source's call `generate_code(secret, challenge)` (R98). -/
def asmGenerateCode (secret challenge : List Byte) : List HostItem :=
  transactions (asmLoadKey secret ++ asmLoadChal challenge ++ asmCmd .generate) ++ asmWaitDone

end Sys2Proof.Machine
end

