-- ==== Sys2Proof/Machine/Program.lean ====
section
/-! DEFINITION. The host performing its program (30_encoding.md R95 to R98) against the machine. The program and its
place in it are the host's and no state of HMACC (10_state.md R42); every move is one `step`. Log entry 12. -/

namespace Sys2Proof.Machine

/-- Who moves next: every interleaving is a list of moves (20_memory.md R70). -/
inductive Move where
  | host
  | engine
  | rstAssert
  | rstRelease
  deriving DecidableEq, Repr

/-- The host's program, what is left of it, beside the machine. -/
structure Session where
  program : List HostItem
  machine : State
  deriving DecidableEq, Repr

/-- What the host does after an item's transaction answered `rdata`: a POLL whose condition does not hold is performed
again (R97), everything else is done. -/
def HostItem.followedBy (item : HostItem) (rest : List HostItem) (rdata : Option Word) : List HostItem :=
  match item, rdata with
  | .txn _, _ => rest
  | .poll off mask value, some w => if pollHolds w mask value then rest else .poll off mask value :: rest
  | .poll off mask value, none => .poll off mask value :: rest

/-- The session after a step of the machine. -/
def Session.after (program : State → List HostItem) (r : Host.Outcome State Fault Refusal) :
    Host.Outcome Session Fault Refusal :=
  match r with
  | .next t => .next { program := program t, machine := t }
  | .fault f => .fault f
  | .refused f => .refused f

/-- The host's next transaction; nothing once its program is done. -/
def Session.hostMove (h : Session) : Host.Outcome Session Fault Refusal :=
  match h.program with
  | [] => .next h
  | item :: rest => Session.after (fun t => item.followedBy rest t.rdata) (step (placeRecord item.record h.machine))

/-- One move. -/
def Session.move (m : Move) (h : Session) : Host.Outcome Session Fault Refusal :=
  let environment : Event → Host.Outcome Session Fault Refusal := fun e =>
    Session.after (fun _ => h.program) (step (h.machine.setEvents (e :: h.machine.events)))
  match m with
  | .host => h.hostMove
  | .engine => environment .engine
  | .rstAssert => environment .rstAssert
  | .rstRelease => environment .rstRelease

/-- A run of moves, up to the first fault or refusal. -/
def Session.run : List Move → Session → Host.Outcome Session Fault Refusal
  | [], h => .next h
  | m :: ms, h =>
    match h.move m with
    | .next h' => Session.run ms h'
    | .fault f => .fault f
    | .refused f => .refused f

/-- The end of a run of a host program (70_reset_and_hazards.md R271): the host has issued its last transaction and PEND
is none. -/
def Session.ended (h : Session) : Bool := h.program.isEmpty && h.machine.pend.isNone

end Sys2Proof.Machine
end

