-- ==== Sys2Proof/Safety.lean ====
section
/-! DEFINITION. What counts as a good state and a good run, in the terms the statements use. -/

namespace Sys2Proof.Machine

/-- The outcome codes HMACC produces (60_exceptions.md R220, R224): 0, 1, 2, 5, 6 and 7. -/
def producedCode (e : BitVec 4) : Prop := e = 0 ∨ e = 1 ∨ e = 2 ∨ e = 5 ∨ e = 6 ∨ e = 7

/-- The outputs are cleared (40_commands.md R111): CODE 0 and six 0x00 bytes, which is not the string "000000". -/
def State.outputsCleared (s : State) : Prop := s.code = 0 ∧ s.codestr = Vector.replicate 6 0

/-- The outputs hold a code and its string (43_truncate_format.md R206). -/
def State.outputsFormatted (s : State) : Prop := s.code.toNat < 1000000 ∧ s.codestr = formatCode s.code

/-- The fields of 10_state.md R44 hold their reset values (R43). -/
def State.atReset (s : State) : Prop :=
  s = { State.reset with rstN := s.rstN, rdata := s.rdata, events := s.events }

/-- The invariant of HMACC. -/
structure State.Inv (s : State) : Prop where
  /-- While busy, DONE and ERRCODE read 0 (70_reset_and_hazards.md R263). -/
  busy_clear : s.pend.isSome = true → s.status.done = false ∧ s.status.errcode = 0
  /-- ERRCODE is a code HMACC produces (60_exceptions.md R220, R224). -/
  errcode_produced : producedCode s.status.errcode
  /-- CODE and CODESTR always agree, or both are cleared (43_truncate_format.md R206). -/
  outputs_agree : s.outputsCleared ∨ s.outputsFormatted
  /-- CODE and CODESTR read 0 during GENERATE, GENERATE_SEED and CLEAR (70_reset_and_hazards.md R263). -/
  busy_outputs : s.pend = some .generate ∨ s.pend = some .generateSeed ∨ s.pend = some .clear → s.outputsCleared
  /-- LASTOP is the opcode of the legal command being performed (40_commands.md R110). -/
  pend_lastop : ∀ op c, s.pend = some op → Op.opcode op = some c → s.status.lastop = c
  /-- DONE 1, ERRCODE 0 and LASTOP 1 or 2 mark CODE and CODESTR as a result (70_reset_and_hazards.md R264). -/
  result_marked : s.status.done = true → s.status.errcode = 0 → s.status.lastop = 1 ∨ s.status.lastop = 2 →
    s.outputsFormatted
  /-- While rst_n is low every piece of state holds its reset value (70_reset_and_hazards.md R250). -/
  low_at_reset : s.rstN = false → s.atReset

/-- `d` is the data of a write under its strobes: lanes whose strobe is 0 are taken as zero (30_encoding.md R90,
20_memory.md R65). -/
def IsStrobed (d data : Word) (be : BitVec 4) : Prop :=
  ∀ i, i < 32 → d.getLsbD i = (be.getLsbD (i / 8) && data.getLsbD i)

/-- The decimal value of ASCII digits, most significant first. -/
def asciiValue (ds : List Byte) : Nat := Nat.ofDigits 10 (ds.reverse.map fun b => b.toNat - 0x30)

/-- A text reads as the integer `x`: an optional sign, then one or more ASCII digits (41_parse.md R141). -/
def ReadsAs (t : List Byte) (x : Int) : Prop :=
  ∃ ds : List Byte, ds ≠ [] ∧ (∀ b ∈ ds, 0x30 ≤ b.toNat ∧ b.toNat ≤ 0x39) ∧
    (((t = ds ∨ t = 0x2B :: ds) ∧ x = asciiValue ds) ∨ (t = 0x2D :: ds ∧ x = -(asciiValue ds : Int)))

/-- A command the host could take a result from (70_reset_and_hazards.md R264). -/
def State.resultReady (s : State) : Prop :=
  s.status.done = true ∧ s.status.errcode = 0 ∧ (s.status.lastop = 1 ∨ s.status.lastop = 2)

/-- The end of a run of the machine's inputs: none of them is left and PEND is none. It asks for more than
70_reset_and_hazards.md R271, which names the host's last transaction and PEND only: engine turns and reset changes
still in the list postpone it too. DESIGN CHOICE, log entry 1. `Session.ended` is R271's own end. -/
def State.runEnded (s : State) : Prop := s.events = [] ∧ s.pend = none

/-- Every transaction still to come is one the port can be given (30_encoding.md R95). -/
def State.inputsPresentable (s : State) : Prop :=
  ∀ r, Event.txn r ∈ s.events → ∃ i, decodeRecord r = .ok i

/-- The key operands of a command (30_encoding.md R92) are the same in both states: CTRL.KLEN_CHK, CTRL.KLEN_REQ,
KEYLEN and KEY[0..KEYLEN). -/
structure State.sameKeyOperands (s t : State) : Prop where
  klenChk : s.ctrl.klenChk = t.ctrl.klenChk
  klenReq : s.ctrl.klenReq = t.ctrl.klenReq
  keylen : s.keylen = t.keylen
  key : ∀ i (h : i < 64), i < s.keylen.toNat → s.key[i] = t.key[i]

/-- The challenge operands of a command (30_encoding.md R92) are the same in both states: CTRL.CLEN_CHK, CTRL.CLEN_REQ,
CHALLEN and CHAL[0..CHALLEN). -/
structure State.sameChallengeOperands (s t : State) : Prop where
  clenChk : s.ctrl.clenChk = t.ctrl.clenChk
  clenReq : s.ctrl.clenReq = t.ctrl.clenReq
  challen : s.challen = t.challen
  chal : ∀ i (h : i < 32), i < s.challen.toNat → s.chal[i] = t.chal[i]

/-- The inputs a busy command works on stand still (20_memory.md R73): everything a command reads (R92), and the
whole buffers. -/
structure State.sameInputs (s t : State) : Prop where
  klenChk : s.ctrl.klenChk = t.ctrl.klenChk
  clenChk : s.ctrl.clenChk = t.ctrl.clenChk
  klenReq : s.ctrl.klenReq = t.ctrl.klenReq
  clenReq : s.ctrl.clenReq = t.ctrl.clenReq
  keylen : s.keylen = t.keylen
  key : s.key = t.key
  challen : s.challen = t.challen
  chal : s.chal = t.chal
  seed : s.seed = t.seed

end Sys2Proof.Machine
end

