-- ==== Sys2Proof/Certificates/Slice0/Obligations.lean ====
section
/-! DEFINITION. The statements about HMACC, from the numbered rules of spec/. -/

open Sys2Proof Sys2Proof.Machine

/-! ### Encoding -/

/-- Decoding the code of a well-formed instruction gives the instruction back, with every operand. -/
def Obligations.DecodeOfEncodeIsTheInstruction : Prop :=
  ∀ i : Instr, i.wellFormed = true → decode (encode i) = .ok i

/-- 30_encoding.md R93: every 32-bit word is one command: encoding what it decodes to gives the word back, so no bit of
a command word is dropped, and what it decodes to is well formed. -/
def Obligations.EveryCommandWordIsOneCommand : Prop :=
  ∀ d : Word, encode (decodeCommand d) = .command d ∧ (decodeCommand d).wellFormed = true

/-- 30_encoding.md R90: the word `d` of a CMD write, and the operation and LASTOP it gives. -/
def Obligations.CommandWordDecodesToOneOperation : Prop :=
  ∀ (s : State) (data d : Word) (be : BitVec 4), s.rstN = true → s.pend = none → be.getLsbD 0 = true →
    IsStrobed d data be →
    ∃ t op, exec (.wr 0x0C data be) s = .next t ∧ t.pend = some op ∧ (decodeCommand d).op = some op ∧
      t.status.lastop.toNat = d.toNat % 16 ∧
      (16 ≤ d.toNat → op = .illegal) ∧
      (d.toNat = 0x0 → op = .nop) ∧
      (d.toNat = 0x1 → op = .generate) ∧
      (d.toNat = 0x2 → op = .generateSeed) ∧
      (d.toNat = 0x3 → op = .parse) ∧
      (d.toNat = 0x4 → op = .clear) ∧
      (d.toNat = 0x5 → op = .zeroize) ∧
      (0x6 ≤ d.toNat ∧ d.toNat ≤ 0xF → op = .illegal)

/-- 30_encoding.md R95: the fields of a record, which records are transactions, and that another is refused. -/
def Obligations.RecordIsATransactionExactlyWhenItsFieldsAreValid : Prop :=
  (∀ r : DWord,
    (r.toNat / 2 ^ 48 ≠ 0 ∨ (r.toNat / 2 ^ 44 % 16 ≠ 1 ∧ r.toNat / 2 ^ 44 % 16 ≠ 2) ∨ r.toNat / 2 ^ 32 % 4 ≠ 0 →
      ∃ why, decodeRecord r = .error why) ∧
    (r.toNat / 2 ^ 48 = 0 → r.toNat / 2 ^ 32 % 4 = 0 → r.toNat / 2 ^ 44 % 16 = 1 →
      decodeRecord r = .ok (.rd (BitVec.ofNat 8 (r.toNat / 2 ^ 32)))) ∧
    (r.toNat / 2 ^ 48 = 0 → r.toNat / 2 ^ 32 % 4 = 0 → r.toNat / 2 ^ 44 % 16 = 2 →
      decodeRecord r = .ok (.wr (BitVec.ofNat 8 (r.toNat / 2 ^ 32)) (BitVec.ofNat 32 r.toNat)
        (BitVec.ofNat 4 (r.toNat / 2 ^ 40))))) ∧
  decodeRecord 0x00002F0C00000001 = .ok (.wr 0x0C 0x1 0xF) ∧
  decodeRecord 0x00001F1000000000 = .ok (.rd 0x10)

/-- Words and records written out in the spec's tables (30_encoding.md R91, R95; 95_test_vectors.md programs P1, P6 and
P7) decode to what they stand for. -/
def Obligations.SpecWordsDecode : Prop :=
  decodeCommand 0x00000000 = .nop ∧ decodeCommand 0x00000001 = .generate ∧ decodeCommand 0x00000002 = .generateSeed ∧
  decodeCommand 0x00000003 = .parse ∧ decodeCommand 0x00000004 = .clear ∧ decodeCommand 0x00000005 = .zeroize ∧
  decodeCommand 0x00000007 = .illegalLow 1 ∧ decodeCommand 0x0000000F = .illegalHigh 7 ∧
  decodeCommand 0x00000011 = .illegalWord 1 1 ∧
  decodeRecord 0x00002F4044434241 = .ok (.wr 0x40 0x44434241 0xF) ∧
  decodeRecord 0x0000228000003500 = .ok (.wr 0x80 0x00003500 0x2) ∧
  decodeRecord 0x00001F2C00000000 = .ok (.rd 0x2C)

/-! ### Steps and reset -/

/-- A host step runs the transaction its record decodes to: `step` is `exec` of it. Around it the step only moves past
the record and ends the validity of rdata. A record that is no transaction is refused. That the inputs stand in State,
that rdata is valid after a read only, and that the refusal is the step's are the model's choices: log entries 1, 2 and
10. -/
def Obligations.HostStepRunsItsTransaction : Prop :=
  ∀ (s : State) (r : DWord) (rest : List Event), s.events = .txn r :: rest →
    (∀ i, decodeRecord r = .ok i → step s = exec i { s with events := rest, rdata := none }) ∧
    (∀ why, decodeRecord r = .error why → step s = .refused (.notATransaction why))

/-- 40_commands.md R112: the engine's step is the completion of the command in PEND: `step` is `exec` of every
instruction that performs that operation. With no command busy the engine's turn does nothing else, nor with rst_n low
(70_reset_and_hazards.md R250). The model's choices in it: the turn is taken at an engine event and after the last input
(log entry 1), the step ends the validity of rdata (log entry 2), and rst_n is a level in State (log entry 7). -/
def Obligations.EngineStepCompletesThePendingCommand : Prop :=
  ∀ (s : State) (rest : List Event), s.events = .engine :: rest ∨ (s.events = [] ∧ rest = []) →
    (∀ op i, s.rstN = true → s.pend = some op → Instr.op i = some op →
      step s = exec i { s with events := rest, rdata := none }) ∧
    (s.rstN = false ∨ s.pend = none → step s = .next { s with events := rest, rdata := none })

/-- 10_state.md R43: what the reset state holds, and what it reads. -/
def Obligations.ResetStateHoldsTheResetValues : Prop :=
  ctrlWord State.reset.ctrl = 0x00060A00 ∧ State.reset.ctrl.ie = false ∧ State.reset.ctrl.klenChk = false ∧
  State.reset.ctrl.clenChk = false ∧ State.reset.ctrl.klenReq = 10 ∧ State.reset.ctrl.clenReq = 6 ∧
  statusWord State.reset = 0 ∧ State.reset.status = ⟨false, false, 0, 0⟩ ∧ State.reset.pend = none ∧
  State.reset.keylen = 0 ∧ (∀ i (h : i < 64), State.reset.key[i] = 0x00) ∧
  State.reset.challen = 0 ∧ (∀ i (h : i < 32), State.reset.chal[i] = 0x00) ∧
  State.reset.seed = 0 ∧ State.reset.code = 0 ∧ (∀ i (h : i < 6), State.reset.codestr[i] = 0x00) ∧
  State.reset.irq = false ∧ busRead 0x00 State.reset = 0x484D4143 ∧ busRead 0x04 State.reset = 0x00062040

/-- 70_reset_and_hazards.md R250: rst_n low and high again sets the reset record from any state, a busy command
abandoned; while it is low irq is 0, reads return 0 and writes are ignored. The inputs still to come are the model's
own field and stay (log entry 1); that the level falls and rises as two events is log entry 7. -/
def Obligations.ResetSetsTheResetRecordFromAnyState : Prop :=
  (∀ (s : State) (rest : List Event), s.events = .rstAssert :: .rstRelease :: rest →
    ∃ t, step s = .next t ∧ t.rstN = false ∧ t.irq = false ∧ t.pend = none ∧
      step t = .next { State.reset with events := rest }) ∧
  (∀ (s : State) (off : BitVec 8) (data : Word) (be : BitVec 4), s.rstN = false → aligned off = true →
    exec (.rd off) s = .next { s with rdata := some 0x00000000 } ∧ exec (.wr off data be) s = .next s)

/-! ### Bus reads -/

/-- 20_memory.md R64: the word a read of each offset answers; a read changes nothing but the port that carries it. -/
def Obligations.ReadAnswersTheRegisterAndChangesNothing : Prop :=
  ∀ (s : State) (off : BitVec 8), s.rstN = true → aligned off = true →
    exec (.rd off) s = .next { s with rdata := some (
      let n := off.toNat
      let c := fun i => (s.chal.getD i 0).setWidth 32
      let S := fun i => (s.codestr.getD i 0).setWidth 32
      let bit : Bool → Word := fun b => if b then 1 else 0
      if n = 0x00 then 0x484D4143
      else if n = 0x04 then 0x00062040
      else if n = 0x08 then
        s.ctrl.clenReq.setWidth 32 <<< 16 ||| s.ctrl.klenReq.setWidth 32 <<< 8
          ||| bit s.ctrl.clenChk <<< 2 ||| bit s.ctrl.klenChk <<< 1 ||| bit s.ctrl.ie
      else if n = 0x0C then 0x00000000
      else if n = 0x10 then
        s.status.lastop.setWidth 32 <<< 12 ||| s.status.errcode.setWidth 32 <<< 8
          ||| bit s.status.ovr <<< 3 ||| bit (s.status.errcode != 0) <<< 2
          ||| bit s.status.done <<< 1 ||| bit (s.pend != none)
      else if n = 0x14 then s.keylen.setWidth 32
      else if n = 0x18 then s.challen.setWidth 32
      else if n = 0x20 then s.seed.extractLsb' 0 32
      else if n = 0x24 then s.seed.extractLsb' 32 32
      else if n = 0x28 then s.code.setWidth 32
      else if n = 0x2C then S 3 <<< 24 ||| S 2 <<< 16 ||| S 1 <<< 8 ||| S 0
      else if n = 0x30 then S 5 <<< 8 ||| S 4
      else if 0x40 ≤ n ∧ n ≤ 0x7C then 0x00000000
      else if 0x80 ≤ n ∧ n ≤ 0x9C then
        let w := (n - 0x80) / 4
        c (4 * w + 3) <<< 24 ||| c (4 * w + 2) <<< 16 ||| c (4 * w + 1) <<< 8 ||| c (4 * w)
      else 0x00000000) }

/-- 10_state.md R31 in part: whatever the key buffer holds, every read of the window answers the same, and a read of
the key words answers 0. -/
def Obligations.KeyCannotBeReadBack : Prop :=
  ∀ (s : State) (k : Vector Byte 64) (off : BitVec 8), aligned off = true →
    ∃ v, exec (.rd off) s = .next { s with rdata := some v } ∧
      exec (.rd off) { s with key := k } = .next { s with key := k, rdata := some v } ∧
      (0x40 ≤ off.toNat ∧ off.toNat ≤ 0x7C → v = 0)

/-- 20_memory.md R62 in part: a transaction whose byte address has bits 1:0 not zero is refused. -/
def Obligations.MisalignedTransactionIsRefused : Prop :=
  ∀ (s : State) (off : BitVec 8) (data : Word) (be : BitVec 4), off.toNat % 4 ≠ 0 →
    exec (.rd off) s = .refused .misaligned ∧ exec (.wr off data be) s = .refused .misaligned

/-- 10_state.md R25, R27, R28 in part: the bits a read of CTRL and of STATUS has, the reserved ones 0. -/
def Obligations.CtrlAndStatusReadTheirFieldsInTheirBits : Prop :=
  ∀ s : State, s.rstN = true →
    (∃ v, exec (.rd 0x08) s = .next { s with rdata := some v } ∧ ∀ i, i < 32 → v.getLsbD i =
      if i = 0 then s.ctrl.ie else if i = 1 then s.ctrl.klenChk else if i = 2 then s.ctrl.clenChk
      else if 8 ≤ i ∧ i ≤ 14 then s.ctrl.klenReq.getLsbD (i - 8)
      else if 16 ≤ i ∧ i ≤ 21 then s.ctrl.clenReq.getLsbD (i - 16) else false) ∧
    (∃ v, exec (.rd 0x10) s = .next { s with rdata := some v } ∧ ∀ i, i < 32 → v.getLsbD i =
      if i = 0 then s.pend.isSome else if i = 1 then s.status.done else if i = 2 then s.status.errcode != 0
      else if i = 3 then s.status.ovr
      else if 8 ≤ i ∧ i ≤ 11 then s.status.errcode.getLsbD (i - 8)
      else if 12 ≤ i ∧ i ≤ 15 then s.status.lastop.getLsbD (i - 12) else false)

/-- 20_memory.md R60 in part: the bytes of CHAL and of CODESTR stand in the little-endian lanes of their words. -/
def Obligations.BufferBytesReadInTheirLanes : Prop :=
  ∀ s : State, s.rstN = true →
    (∀ i (h : i < 32), ∃ v, exec (.rd (BitVec.ofNat 8 (0x80 + 4 * (i / 4)))) s = .next { s with rdata := some v } ∧
      v.extractLsb' (8 * (i % 4)) 8 = s.chal[i]) ∧
    (∀ i (h : i < 6), ∃ v, exec (.rd (BitVec.ofNat 8 (0x2C + 4 * (i / 4)))) s = .next { s with rdata := some v } ∧
      v.extractLsb' (8 * (i % 4)) 8 = s.codestr[i])

/-! ### Bus writes -/

/-- 20_memory.md R65, 10_state.md R25: a CTRL write while idle takes the strobed lanes' fields, and nothing else. -/
def Obligations.CtrlWriteWhenIdleTakesStrobedFields : Prop :=
  ∀ (s : State) (data : Word) (be : BitVec 4), s.rstN = true → s.pend = none →
    exec (.wr 0x08 data be) s = .next { s with ctrl := {
      ie := if be.getLsbD 0 then data.getLsbD 0 else s.ctrl.ie
      klenChk := if be.getLsbD 0 then data.getLsbD 1 else s.ctrl.klenChk
      clenChk := if be.getLsbD 0 then data.getLsbD 2 else s.ctrl.clenChk
      klenReq := if be.getLsbD 1 then data.extractLsb' 8 7 else s.ctrl.klenReq
      clenReq := if be.getLsbD 2 then data.extractLsb' 16 6 else s.ctrl.clenReq } }

/-- 70_reset_and_hazards.md R261: a CTRL write while busy updates IE only; an attempt to change a policy field sets
OVR. -/
def Obligations.CtrlWriteWhileBusyUpdatesIeOnly : Prop :=
  ∀ (s : State) (data : Word) (be : BitVec 4), s.rstN = true → s.pend ≠ none →
    ∃ ovr : Bool, exec (.wr 0x08 data be) s = .next { s with
        ctrl := { s.ctrl with ie := if be.getLsbD 0 then data.getLsbD 0 else s.ctrl.ie }
        status := { s.status with ovr := ovr } } ∧
      (ovr = true ↔ s.status.ovr = true ∨
        (be.getLsbD 0 = true ∧ (data.getLsbD 1 ≠ s.ctrl.klenChk ∨ data.getLsbD 2 ≠ s.ctrl.clenChk)) ∨
        (be.getLsbD 1 = true ∧ data.extractLsb' 8 7 ≠ s.ctrl.klenReq) ∨
        (be.getLsbD 2 = true ∧ data.extractLsb' 16 6 ≠ s.ctrl.clenReq))

/-- 40_commands.md R110: a command word written to CMD with lane 0 strobed is accepted while no command is busy;
70_reset_and_hazards.md R262: while one is, it is dropped and sets OVR, and LASTOP, DONE and ERRCODE stay. -/
def Obligations.CommandWriteIsAcceptedWhenIdleAndDroppedWhileBusy : Prop :=
  ∀ (s : State) (data d : Word) (be : BitVec 4), s.rstN = true → be.getLsbD 0 = true → IsStrobed d data be →
    (s.pend = none → exec (.wr 0x0C data be) s = .next { s with
      pend := some (decodeOp d)
      status := { done := false, ovr := s.status.ovr, errcode := 0, lastop := d.extractLsb' 0 4 }
      code := if decodeOp d = .generate ∨ decodeOp d = .generateSeed ∨ decodeOp d = .clear then 0 else s.code
      codestr := if decodeOp d = .generate ∨ decodeOp d = .generateSeed ∨ decodeOp d = .clear
        then #v[0x00, 0x00, 0x00, 0x00, 0x00, 0x00] else s.codestr }) ∧
    (s.pend ≠ none → exec (.wr 0x0C data be) s = .next { s with status := { s.status with ovr := true } })

/-- 20_memory.md R65 in part, 30_encoding.md R93 in part: a CMD write without lane 0 is no command at all. -/
def Obligations.CommandWriteWithoutLaneZeroIsIgnored : Prop :=
  ∀ (s : State) (data : Word) (be : BitVec 4), be.getLsbD 0 = false → exec (.wr 0x0C data be) s = .next s

/-- 20_memory.md R66, 10_state.md R27: a STATUS write clears DONE and OVR where lane 0 is strobed and the bit is 1, and
does nothing else, busy or not. -/
def Obligations.StatusWriteClearsDoneAndOvr : Prop :=
  ∀ (s : State) (data : Word) (be : BitVec 4), s.rstN = true →
    exec (.wr 0x10 data be) s = .next { s with status := { s.status with
      done := if be.getLsbD 0 = true ∧ data.getLsbD 1 = true then false else s.status.done
      ovr := if be.getLsbD 0 = true ∧ data.getLsbD 3 = true then false else s.status.ovr } }

/-- 10_state.md R29, R32; 20_memory.md R65: KEYLEN and CHALLEN take lane 0 only, and every value of their bits. -/
def Obligations.LengthWriteWhenIdleTakesLaneZero : Prop :=
  ∀ (s : State) (data : Word) (be : BitVec 4), s.rstN = true → s.pend = none →
    exec (.wr 0x14 data be) s =
      .next { s with keylen := if be.getLsbD 0 then BitVec.ofNat 7 data.toNat else s.keylen } ∧
    exec (.wr 0x18 data be) s =
      .next { s with challen := if be.getLsbD 0 then BitVec.ofNat 6 data.toNat else s.challen }

/-- 10_state.md R34; 20_memory.md R65: SEED_LO and SEED_HI are the halves of SEED; a write merges the strobed lanes. -/
def Obligations.SeedWriteWhenIdleMergesStrobedLanes : Prop :=
  ∀ (s : State) (data : Word) (be : BitVec 4), s.rstN = true → s.pend = none →
    (∃ v, exec (.wr 0x20 data be) s = .next { s with seed := v } ∧ ∀ i, i < 64 → v.getLsbD i =
      if i < 32 ∧ be.getLsbD (i / 8) = true then data.getLsbD i else s.seed.getLsbD i) ∧
    (∃ v, exec (.wr 0x24 data be) s = .next { s with seed := v } ∧ ∀ i, i < 64 → v.getLsbD i =
      if 32 ≤ i ∧ be.getLsbD (i / 8 - 4) = true then data.getLsbD (i - 32) else s.seed.getLsbD i)

/-- 10_state.md R30, R33; 20_memory.md R65: a write to a word of KEY or CHAL stores its strobed lanes in the word's
bytes, and nothing else changes. -/
def Obligations.BufferWriteWhenIdleStoresStrobedLanes : Prop :=
  ∀ (s : State) (data : Word) (be : BitVec 4), s.rstN = true → s.pend = none →
    (∀ w, w < 16 → ∃ k, exec (.wr (BitVec.ofNat 8 (0x40 + 4 * w)) data be) s = .next { s with key := k } ∧
      ∀ i (h : i < 64), k[i] =
        if i / 4 = w ∧ be.getLsbD (i % 4) = true then data.extractLsb' (8 * (i % 4)) 8 else s.key[i]) ∧
    (∀ w, w < 8 → ∃ k, exec (.wr (BitVec.ofNat 8 (0x80 + 4 * w)) data be) s = .next { s with chal := k } ∧
      ∀ i (h : i < 32), k[i] =
        if i / 4 = w ∧ be.getLsbD (i % 4) = true then data.extractLsb' (8 * (i % 4)) 8 else s.chal[i])

/-- 20_memory.md R65 in part, 10_state.md R37: writes to read-only and reserved offsets, and writes without a strobe,
have no effect, busy or not, not even on OVR. -/
def Obligations.IgnoredWriteHasNoEffect : Prop :=
  ∀ (s : State) (off : BitVec 8) (data : Word) (be : BitVec 4), aligned off = true →
    be = 0 ∨ off = 0x00 ∨ off = 0x04 ∨ off = 0x1C ∨ off = 0x28 ∨ off = 0x2C ∨ off = 0x30 ∨ off = 0x34 ∨ off = 0x38 ∨
      off = 0x3C ∨ 0xA0 ≤ off.toNat →
    exec (.wr off data be) s = .next s

/-- 70_reset_and_hazards.md R260: a write to an input register while busy changes none of them and sets OVR. -/
def Obligations.InputWriteWhileBusyIsDroppedWithOvr : Prop :=
  ∀ (s : State) (off : BitVec 8) (data : Word) (be : BitVec 4), s.rstN = true → s.pend ≠ none → be ≠ 0 →
    aligned off = true →
    off = 0x14 ∨ off = 0x18 ∨ off = 0x20 ∨ off = 0x24 ∨ (0x40 ≤ off.toNat ∧ off.toNat ≤ 0x7C) ∨
      (0x80 ≤ off.toNat ∧ off.toNat ≤ 0x9C) →
    exec (.wr off data be) s = .next { s with status := { s.status with ovr := true } }

/-- The frame of WR (20_memory.md R65): every aligned write completes, and what each offset can change. -/
def Obligations.WriteCompletesAndKeepsItsFrame : Prop :=
  ∀ (s : State) (off : BitVec 8) (data : Word) (be : BitVec 4), aligned off = true →
    ∃ t, exec (.wr off data be) s = .next t ∧
      t.rstN = s.rstN ∧ t.rdata = s.rdata ∧ t.events = s.events ∧
      (off ≠ 0x08 → t.ctrl = s.ctrl) ∧
      (off ≠ 0x0C → t.pend = s.pend ∧ t.status.errcode = s.status.errcode ∧ t.status.lastop = s.status.lastop ∧
        t.code = s.code ∧ t.codestr = s.codestr) ∧
      (off ≠ 0x0C → off ≠ 0x10 → t.status.done = s.status.done) ∧
      (off ≠ 0x10 → s.pend = none → t.status.ovr = s.status.ovr) ∧
      (off ≠ 0x10 → s.status.ovr = true → t.status.ovr = true) ∧
      (off ≠ 0x14 → t.keylen = s.keylen) ∧
      (off ≠ 0x18 → t.challen = s.challen) ∧
      (off ≠ 0x20 → off ≠ 0x24 → t.seed = s.seed) ∧
      (∀ i (h : i < 64), ¬(off.toNat = 0x40 + 4 * (i / 4) ∧ be.getLsbD (i % 4) = true) → t.key[i] = s.key[i]) ∧
      (∀ i (h : i < 32), ¬(off.toNat = 0x80 + 4 * (i / 4) ∧ be.getLsbD (i % 4) = true) → t.chal[i] = s.chal[i])

/-! ### Commands -/

/-- 40_commands.md R115, R121, R123: NOP and CLEAR complete with ERRCODE 0, every ILLEGAL word with ERRCODE 5; nothing
else changes at the completion. -/
def Obligations.NopClearAndIllegalChangeStatusOnly : Prop :=
  ∀ s : State,
    exec .nop s = .next { s with pend := none, status := { s.status with errcode := 0, done := true } } ∧
    exec .clear s = .next { s with pend := none, status := { s.status with errcode := 0, done := true } } ∧
    (∀ low, exec (.illegalLow low) s =
      .next { s with pend := none, status := { s.status with errcode := 5, done := true } }) ∧
    (∀ low, exec (.illegalHigh low) s =
      .next { s with pend := none, status := { s.status with errcode := 5, done := true } }) ∧
    (∀ op rsvd, exec (.illegalWord op rsvd) s =
      .next { s with pend := none, status := { s.status with errcode := 5, done := true } })

/-- 40_commands.md R123: from any idle state, an illegal word written to CMD and then completed changes STATUS only:
LASTOP is the word's bits 3:0, ERRCODE is 5, DONE is 1. -/
def Obligations.IllegalWordFromWriteToCompletion : Prop :=
  ∀ (s : State) (data d : Word) (be : BitVec 4), s.rstN = true → s.pend = none → be.getLsbD 0 = true →
    IsStrobed d data be → 6 ≤ d.toNat →
    ∃ t, exec (.wr 0x0C data be) s = .next t ∧ t.status.done = false ∧ t.status.errcode = 0 ∧
      t.status.lastop.toNat = d.toNat % 16 ∧ t.pend = some .illegal ∧
      ∀ i, Instr.op i = some .illegal → exec i t = .next { s with
        status := { done := true, ovr := s.status.ovr, errcode := 5, lastop := d.extractLsb' 0 4 } }

/-- 40_commands.md R122: ZEROIZE erases every input and output; CTRL, OVR and LASTOP stay. -/
def Obligations.ZeroizeErasesInputsAndOutputs : Prop :=
  ∀ s : State, ∃ t, exec .zeroize s = .next t ∧
    (∀ i (h : i < 64), t.key[i] = 0x00) ∧ t.keylen = 0 ∧ (∀ i (h : i < 32), t.chal[i] = 0x00) ∧ t.challen = 0 ∧
    t.seed = 0 ∧ t.code = 0 ∧ (∀ i (h : i < 6), t.codestr[i] = 0x00) ∧
    t.pend = none ∧ t.status = { s.status with errcode := 0, done := true } ∧
    t.ctrl = s.ctrl ∧ t.rstN = s.rstN ∧ t.rdata = s.rdata ∧ t.events = s.events

/-- 40_commands.md R116: PARSE. The text is CHAL[0..min(CHALLEN, 32)); what it reads as is
`Obligations.ParseReadsSignedDecimals`. -/
def Obligations.ParseStoresTheSeedOrReportsItsError : Prop :=
  ∀ s : State,
    (s.ctrl.clenChk = true → s.challen ≠ s.ctrl.clenReq →
      exec .parse s = .next { s with pend := none, status := { s.status with errcode := 7, done := true } }) ∧
    (s.ctrl.clenChk = false ∨ s.challen = s.ctrl.clenReq →
      (parseChallenge (s.chal.toList.take (min s.challen.toNat 32)) s.challen.toNat = none →
        exec .parse s = .next { s with pend := none, status := { s.status with errcode := 1, done := true } }) ∧
      (∀ v, parseChallenge (s.chal.toList.take (min s.challen.toNat 32)) s.challen.toNat = some v →
        exec .parse s =
          .next { s with pend := none, seed := v, status := { s.status with errcode := 0, done := true } }))

/-- 40_commands.md R118: GENERATE_SEED, its two errors in their order and its result. -/
def Obligations.GenerateSeedWritesTheCodeOrReportsItsError : Prop :=
  ∀ s : State,
    (s.ctrl.klenChk = true → s.keylen ≠ s.ctrl.klenReq →
      exec .generateSeed s = .next { s with pend := none, status := { s.status with errcode := 6, done := true } }) ∧
    (s.ctrl.klenChk = false ∨ s.keylen = s.ctrl.klenReq →
      (s.keylen.toNat = 0 ∨ 64 < s.keylen.toNat →
        exec .generateSeed s = .next { s with pend := none, status := { s.status with errcode := 2, done := true } }) ∧
      (1 ≤ s.keylen.toNat → s.keylen.toNat ≤ 64 →
        exec .generateSeed s = .next { s with
          pend := none
          code := truncate (hmacSha1 (s.key.toList.take s.keylen.toNat) (counterFrame s.seed))
          codestr := formatCode (truncate (hmacSha1 (s.key.toList.take s.keylen.toNat) (counterFrame s.seed)))
          status := { s.status with errcode := 0, done := true } }))

/-- 40_commands.md R120, 60_exceptions.md R225: GENERATE, its four errors in their order and its result. A key error
leaves the parsed seed in SEED. -/
def Obligations.GenerateWritesSeedAndCodeOrReportsItsFirstError : Prop :=
  ∀ s : State,
    (s.ctrl.klenChk = true ∧ s.keylen ≠ s.ctrl.klenReq →
      exec .generate s = .next { s with pend := none, status := { s.status with errcode := 6, done := true } }) ∧
    (s.ctrl.klenChk = false ∨ s.keylen = s.ctrl.klenReq →
      (s.ctrl.clenChk = true ∧ s.challen ≠ s.ctrl.clenReq →
        exec .generate s = .next { s with pend := none, status := { s.status with errcode := 7, done := true } }) ∧
      (s.ctrl.clenChk = false ∨ s.challen = s.ctrl.clenReq →
        (parseChallenge (s.chal.toList.take (min s.challen.toNat 32)) s.challen.toNat = none →
          exec .generate s = .next { s with pend := none, status := { s.status with errcode := 1, done := true } }) ∧
        (∀ v, parseChallenge (s.chal.toList.take (min s.challen.toNat 32)) s.challen.toNat = some v →
          (s.keylen.toNat = 0 ∨ 64 < s.keylen.toNat →
            exec .generate s =
              .next { s with pend := none, seed := v, status := { s.status with errcode := 2, done := true } }) ∧
          (1 ≤ s.keylen.toNat ∧ s.keylen.toNat ≤ 64 →
            exec .generate s = .next { s with
              pend := none
              seed := v
              code := truncate (hmacSha1 (s.key.toList.take s.keylen.toNat) (counterFrame v))
              codestr := formatCode (truncate (hmacSha1 (s.key.toList.take s.keylen.toNat) (counterFrame v)))
              status := { s.status with errcode := 0, done := true } }))))

/-- 40_commands.md R112, R113; 60_exceptions.md R220: every command completes from every state: PEND none, DONE 1, and
an ERRCODE that HMACC produces. -/
def Obligations.EveryCommandCompletes : Prop :=
  ∀ (i : Instr) (op : Op) (s : State), i.op = some op →
    ∃ t, exec i s = .next t ∧ t.pend = none ∧ t.status.done = true ∧ producedCode t.status.errcode

/-- 40_commands.md R124, 60_exceptions.md R226 in part: the frame of the commands: NOP, GENERATE, GENERATE_SEED, PARSE,
CLEAR, ZEROIZE and ILLEGAL. -/
def Obligations.CommandKeepsItsFrame : Prop :=
  ∀ (i : Instr) (op : Op) (s t : State), i.op = some op → exec i s = .next t →
    t.ctrl = s.ctrl ∧ t.status.ovr = s.status.ovr ∧ t.status.lastop = s.status.lastop ∧
    t.rstN = s.rstN ∧ t.rdata = s.rdata ∧ t.events = s.events ∧
    (op ≠ .zeroize → t.keylen = s.keylen ∧ t.challen = s.challen ∧
      (∀ i (h : i < 64), t.key[i] = s.key[i]) ∧ (∀ i (h : i < 32), t.chal[i] = s.chal[i])) ∧
    (op ≠ .zeroize → op ≠ .parse → op ≠ .generate → t.seed = s.seed) ∧
    (op ≠ .zeroize → op ≠ .generate → op ≠ .generateSeed → t.code = s.code ∧ t.codestr = s.codestr) ∧
    (t.status.errcode ≠ 0 → t.code = s.code ∧ t.codestr = s.codestr)

/-- No instruction faults from any state, and a well-formed one is never refused (20_memory.md R63: "no error
response"; 60_exceptions.md R221: "An error is not a trap"). -/
def Obligations.WellFormedInstructionAnswersANextState : Prop :=
  (∀ (i : Instr) (s : State), i.wellFormed = true → ∃ t, exec i s = .next t) ∧
  (∀ (i : Instr) (s : State) (f : Fault), exec i s ≠ .fault f)

/-- 40_commands.md R119 in part: a GENERATE or GENERATE_SEED that fails leaves CODE 0 and CODESTR cleared, because of
its acceptance. -/
def Obligations.FailedGenerateLeavesNoCode : Prop :=
  ∀ (s t u : State) (d : Word) (i : Instr), s.rstN = true → s.pend = none → (d = 1 ∧ i = .generate) ∨
    (d = 2 ∧ i = .generateSeed) → exec (.wr 0x0C d 0xF) s = .next t → exec i t = .next u → u.status.errcode ≠ 0 →
    u.code = 0 ∧ ∀ j (h : j < 6), u.codestr[j] = 0x00

/-! ### The pipeline -/

/-- 41_parse.md R141: the accepted language and its value, for a challenge text of at most 32 bytes, and that a length
of 0 or above 32 is rejected. -/
def Obligations.ParseReadsSignedDecimals : Prop :=
  (∀ (t : List Byte), 1 ≤ t.length → t.length ≤ 32 → ∀ v : DWord,
    (parseChallenge t t.length = some v ↔
      ∃ x : Int, ReadsAs t x ∧ -2 ^ 63 ≤ x ∧ x ≤ 2 ^ 63 - 1 ∧ v = BitVec.ofInt 64 x)) ∧
  (∀ (t : List Byte) (n : Nat), n = 0 ∨ 32 < n → parseChallenge t n = none)

/-- 42_hmac_sha1.md R162: the counter frame, byte by byte. -/
def Obligations.CounterFrameIsTheLowWordBigEndian : Prop :=
  ∀ seed : DWord, (counterFrame seed).map BitVec.toNat =
    [0, 0, 0, 0, seed.toNat / 2 ^ 24 % 256, seed.toNat / 2 ^ 16 % 256, seed.toNat / 2 ^ 8 % 256, seed.toNat % 256]

/-- 40_commands.md R117: GENERATE_SEED computes the same code for seeds that differ by a multiple of 2^32. -/
def Obligations.SeedsEqualModulo32BitsGiveTheSameCode : Prop :=
  ∀ (s : State) (v : DWord) (t u : State), v.toNat % 2 ^ 32 = s.seed.toNat % 2 ^ 32 →
    exec .generateSeed s = .next t → exec .generateSeed { s with seed := v } = .next u →
    u.code = t.code ∧ u.codestr = t.codestr ∧ u.status = t.status

/-- 40_commands.md R117: GENERATE from a text gives the seed and the code of PARSE followed by GENERATE_SEED, whenever
all succeed. -/
def Obligations.GenerateIsParseThenGenerateSeed : Prop :=
  ∀ s p g t : State, exec .parse s = .next p → p.status.errcode = 0 → exec .generateSeed p = .next g →
    g.status.errcode = 0 → exec .generate s = .next t → t.status.errcode = 0 →
    t.seed = g.seed ∧ t.code = g.code ∧ t.codestr = g.codestr

/-- 42_hmac_sha1.md R182: keys of at most 64 bytes that differ only by trailing zero bytes give the same digest. -/
def Obligations.TrailingZeroKeyBytesDoNotMatter : Prop :=
  ∀ (k m : List Byte) (n : Nat), k.length + n ≤ 64 → hmacSha1 (k ++ List.replicate n 0x00) m = hmacSha1 k m

/-- 43_truncate_format.md R200 to R204: the offset, the window inside the digest, the cleared sign bit, and the
remainder, in plain arithmetic. -/
def Obligations.TruncationFollowsItsArithmetic : Prop :=
  ∀ digest : List Byte, digest.length = 20 →
    ∃ o b0 b1 b2 b3 b19, digest[19]? = some b19 ∧ o = b19.toNat % 16 ∧ o + 3 ≤ 18 ∧
      digest[o]? = some b0 ∧ digest[o + 1]? = some b1 ∧ digest[o + 2]? = some b2 ∧ digest[o + 3]? = some b3 ∧
      (truncate digest).toNat =
        (b0.toNat % 128 * 2 ^ 24 + b1.toNat * 2 ^ 16 + b2.toNat * 2 ^ 8 + b3.toNat) % 1000000 ∧
      (truncate digest).toNat ≤ 999999

/-- 43_truncate_format.md R205: the six bytes of a formatted code, and that they are ASCII digits that read as the
code. -/
def Obligations.FormatWritesSixDecimalDigits : Prop :=
  ∀ code : BitVec 20, code.toNat ≤ 999999 →
    (∀ i (h : i < 6), (formatCode code)[i].toNat = 0x30 + code.toNat / 10 ^ (5 - i) % 10 ∧
      0x30 ≤ (formatCode code)[i].toNat ∧ (formatCode code)[i].toNat ≤ 0x39) ∧
    asciiValue (formatCode code).toList = code.toNat

/-- 42_hmac_sha1.md R181: the inner input of a command's HMAC has 72 bytes and the outer 84, each two blocks when
padded; the digest has 20 bytes. -/
def Obligations.HmacInputsPadToTwoBlocksEach : Prop :=
  ∀ (k : List Byte) (seed : DWord), 1 ≤ k.length → k.length ≤ 64 →
    (xorPad (hmacKeyBlock k) 0x36 ++ counterFrame seed).length = 72 ∧
    (sha1Blocks (sha1Pad (xorPad (hmacKeyBlock k) 0x36 ++ counterFrame seed))).length = 2 ∧
    (xorPad (hmacKeyBlock k) 0x5C ++ hmacInner k (counterFrame seed)).length = 84 ∧
    (sha1Blocks (sha1Pad (xorPad (hmacKeyBlock k) 0x5C ++ hmacInner k (counterFrame seed)))).length = 2 ∧
    (hmacSha1 k (counterFrame seed)).length = 20

/-- 42_hmac_sha1.md R166: the padding: the message, 0x80, the least number of zero bytes, and the length in bits as
eight bytes, the most significant first. -/
def Obligations.Sha1PaddingIsTheLeastToAWholeBlock : Prop :=
  ∀ m : List Byte, ∃ k, (sha1Pad m).map BitVec.toNat =
      m.map BitVec.toNat ++ [0x80] ++ List.replicate k 0 ++
        [8 * m.length / 2 ^ 56 % 256, 8 * m.length / 2 ^ 48 % 256, 8 * m.length / 2 ^ 40 % 256,
         8 * m.length / 2 ^ 32 % 256, 8 * m.length / 2 ^ 24 % 256, 8 * m.length / 2 ^ 16 % 256,
         8 * m.length / 2 ^ 8 % 256, 8 * m.length % 256] ∧
    (m.length + 1 + k) % 64 = 56 ∧ (∀ j, (m.length + 1 + j) % 64 = 56 → k ≤ j) ∧ (sha1Pad m).length % 64 = 0

/-- 42_hmac_sha1.md R171: the message schedule: 80 words, the first 16 the block's, read big-endian (R167), each later
one by the recurrence. -/
def Obligations.Sha1ScheduleFollowsItsRecurrence : Prop :=
  ∀ block : List Byte, (sha1Schedule block).length = 80 ∧
    (∀ t, t < 16 → ((sha1Schedule block).getD t 0).toNat =
      (block.getD (4 * t) 0).toNat * 2 ^ 24 + (block.getD (4 * t + 1) 0).toNat * 2 ^ 16 +
        (block.getD (4 * t + 2) 0).toNat * 2 ^ 8 + (block.getD (4 * t + 3) 0).toNat) ∧
    (∀ t, 16 ≤ t → t < 80 → (sha1Schedule block).getD t 0 =
      ((sha1Schedule block).getD (t - 3) 0 ^^^ (sha1Schedule block).getD (t - 8) 0 ^^^
        (sha1Schedule block).getD (t - 14) 0 ^^^ (sha1Schedule block).getD (t - 16) 0).rotateLeft 1)

/-- 42_hmac_sha1.md R168, R172: the compression of a block: 80 rounds over its schedule, each by the round's function
and constant, then the sum with the hash it began from. -/
def Obligations.Sha1CompressionIsEightyRounds : Prop :=
  ∀ (h : Sha1Vars) (block : List Byte), ∃ v : Nat → Sha1Vars, v 0 = h ∧
    (∀ t, t < 80 →
      (v (t + 1)).a = (v t).a.rotateLeft 5 +
        (let x := (v t).b; let y := (v t).c; let z := (v t).d
          if t < 20 then (x &&& y) ^^^ (~~~x &&& z)
          else if 40 ≤ t ∧ t < 60 then (x &&& y) ^^^ (x &&& z) ^^^ (y &&& z)
          else x ^^^ y ^^^ z) +
        (v t).e +
        (if t < 20 then 0x5A827999 else if t < 40 then 0x6ED9EBA1 else if t < 60 then 0x8F1BBCDC else 0xCA62C1D6) +
        (sha1Schedule block).getD t 0 ∧
      (v (t + 1)).b = (v t).a ∧ (v (t + 1)).c = (v t).b.rotateLeft 30 ∧ (v (t + 1)).d = (v t).c ∧
      (v (t + 1)).e = (v t).d) ∧
    sha1Compress h block =
      ⟨h.a + (v 80).a, h.b + (v 80).b, h.c + (v 80).c, h.d + (v 80).d, h.e + (v 80).e⟩

/-- 42_hmac_sha1.md R165, R170, R173, and R167 in part: SHA-1 of a message: from the five initial words, the compression
of each 64-byte block of the padded message in order; the 20 bytes of the last hash, each word's most significant byte first. -/
def Obligations.Sha1ChainsTheBlocksFromTheInitialHash : Prop :=
  ∀ m : List Byte, ∃ h : Nat → Sha1Vars,
    h 0 = ⟨0x67452301, 0xEFCDAB89, 0x98BADCFE, 0x10325476, 0xC3D2E1F0⟩ ∧
    (∀ i, i < (sha1Pad m).length / 64 → h (i + 1) = sha1Compress (h i) (((sha1Pad m).drop (64 * i)).take 64)) ∧
    (sha1 m).map BitVec.toNat =
      (let last := h ((sha1Pad m).length / 64);
        [last.a, last.b, last.c, last.d, last.e].flatMap fun w =>
          [w.toNat / 2 ^ 24, w.toNat / 2 ^ 16 % 256, w.toNat / 2 ^ 8 % 256, w.toNat % 256])

/-- 42_hmac_sha1.md R180: HMAC hashes twice, under the 64-byte key block with ipad and with opad; the block is the key,
or the hash of a key above 64 bytes, with zero bytes after it. -/
def Obligations.HmacHashesTwiceUnderThePaddedKey : Prop :=
  ∀ k m : List Byte, ∃ k0 : List Byte, k0.length = 64 ∧
    (∀ i, i < 64 → k0.getD i 0x00 = (if 64 < k.length then sha1 k else k).getD i 0x00) ∧
    hmacSha1 k m = sha1 (k0.map (fun b => b ^^^ 0x5C) ++ sha1 (k0.map (fun b => b ^^^ 0x36) ++ m))

/-- 43_truncate_format.md R204, R205; 00_scope.md R14: a GENERATE or GENERATE_SEED that completes with ERRCODE 0 leaves
a code in [0, 999999] and its six ASCII digits. -/
def Obligations.SuccessfulGenerateHasRangeAndShape : Prop :=
  ∀ s t : State, exec .generate s = .next t ∨ exec .generateSeed s = .next t → t.status.errcode = 0 →
    t.code.toNat ≤ 999999 ∧
    (∀ i (h : i < 6), 0x30 ≤ t.codestr[i].toNat ∧ t.codestr[i].toNat ≤ 0x39) ∧
    asciiValue t.codestr.toList = t.code.toNat

/-- 00_scope.md R14, 10_state.md R30, R33, 30_encoding.md R92, 60_exceptions.md R229: a command's outcome is a function
of the operands it reads: states that agree on them, whatever else they hold (key bytes at KEYLEN or above, challenge
bytes at CHALLEN or above, the earlier outputs and STATUS among it), get the same ERRCODE and, on success, the same
SEED, CODE and CODESTR. -/
def Obligations.CommandsDependOnTheirOperandsOnly : Prop :=
  ∀ s s' t t' : State,
    (s.sameKeyOperands s' → s.sameChallengeOperands s' → exec .generate s = .next t → exec .generate s' = .next t' →
      t.status.errcode = t'.status.errcode ∧
      (t.status.errcode = 0 → t.seed = t'.seed ∧ t.code = t'.code ∧ t.codestr = t'.codestr)) ∧
    (s.sameKeyOperands s' → s.seed = s'.seed → exec .generateSeed s = .next t → exec .generateSeed s' = .next t' →
      t.status.errcode = t'.status.errcode ∧
      (t.status.errcode = 0 → t.code = t'.code ∧ t.codestr = t'.codestr)) ∧
    (s.sameChallengeOperands s' → exec .parse s = .next t → exec .parse s' = .next t' →
      t.status.errcode = t'.status.errcode ∧ (t.status.errcode = 0 → t.seed = t'.seed))

/-! ### The whole machine -/

/-- Every step from a state that meets the invariant leads to one that does. -/
def Obligations.EveryStepKeepsTheInvariant : Prop :=
  ∀ s t : State, s.Inv → step s = .next t → t.Inv

/-- The reset state meets the invariant. -/
def Obligations.ResetStateMeetsTheInvariant : Prop :=
  State.reset.Inv

/-- 20_memory.md R73: while a command stays busy, no step changes anything it reads. -/
def Obligations.InputsStandStillWhileBusy : Prop :=
  ∀ s t : State, s.pend ≠ none → step s = .next t → t.pend ≠ none → s.sameInputs t ∧ t.pend = s.pend

/-- 10_state.md R40: OVR is cleared only by a W1C write of bit 3 and by reset, and set only by a write dropped while
busy: a CMD write with lane 0 strobed (70_reset_and_hazards.md R262), a strobed write to an input register (R260), or a
CTRL write that asks for another value of a policy field in a strobed lane (R261). -/
def Obligations.OvrChangesOnlyAsTheFlagTableSays : Prop :=
  ∀ s t : State, step s = .next t →
    (s.status.ovr = true → t.status.ovr = false →
      (∃ rest, s.events = .rstAssert :: rest) ∨
      ∃ r rest data be, s.events = .txn r :: rest ∧ decodeRecord r = .ok (.wr 0x10 data be) ∧
        be.getLsbD 0 = true ∧ data.getLsbD 3 = true) ∧
    (s.status.ovr = false → t.status.ovr = true →
      s.rstN = true ∧ s.pend ≠ none ∧
      ∃ r rest off data be, s.events = .txn r :: rest ∧ decodeRecord r = .ok (.wr off data be) ∧
        ((off = 0x0C ∧ be.getLsbD 0 = true) ∨
          (be ≠ 0 ∧ (off = 0x14 ∨ off = 0x18 ∨ off = 0x20 ∨ off = 0x24 ∨ (0x40 ≤ off.toNat ∧ off.toNat ≤ 0x7C) ∨
            (0x80 ≤ off.toNat ∧ off.toNat ≤ 0x9C))) ∨
          (off = 0x08 ∧
            ((be.getLsbD 0 = true ∧ (data.getLsbD 1 ≠ s.ctrl.klenChk ∨ data.getLsbD 2 ≠ s.ctrl.clenChk)) ∨
              (be.getLsbD 1 = true ∧ data.extractLsb' 8 7 ≠ s.ctrl.klenReq) ∨
              (be.getLsbD 2 = true ∧ data.extractLsb' 16 6 ≠ s.ctrl.clenReq)))))

/-- 10_state.md R40: DONE is set only by a completion, and cleared only by an acceptance, a W1C write of bit 1 and
reset. -/
def Obligations.DoneChangesOnlyAsTheFlagTableSays : Prop :=
  ∀ s t : State, step s = .next t →
    (s.status.done = false → t.status.done = true → s.pend ≠ none ∧ t.pend = none) ∧
    (s.status.done = true → t.status.done = false →
      (∃ rest, s.events = .rstAssert :: rest) ∨
      ∃ r rest off data be, s.events = .txn r :: rest ∧ decodeRecord r = .ok (.wr off data be) ∧
        be.getLsbD 0 = true ∧
        ((off = 0x0C ∧ s.pend = none ∧ t.pend ≠ none) ∨ (off = 0x10 ∧ data.getLsbD 1 = true)))

/-- 10_state.md R31 in part: only a host write to a key word while idle, the completion of ZEROIZE, or reset changes
KEY. -/
def Obligations.KeyChangesOnlyByWriteZeroizeOrReset : Prop :=
  ∀ s t : State, step s = .next t → t.key ≠ s.key →
    (∃ rest, s.events = .rstAssert :: rest) ∨
    (s.pend = some .zeroize ∧ t.pend = none ∧ ∀ i (h : i < 64), t.key[i] = 0x00) ∨
    (s.pend = none ∧ ∃ r rest off data be, s.events = .txn r :: rest ∧ decodeRecord r = .ok (.wr off data be) ∧
      0x40 ≤ off.toNat ∧ off.toNat ≤ 0x7C)

/-- 60_exceptions.md R230: irq is the level IE and DONE, in every state; a completion raises it exactly when IE is set,
and an acceptance lowers it. -/
def Obligations.IrqIsRaisedByCompletionWhenEnabled : Prop :=
  (∀ s : State, s.irq = (s.ctrl.ie && s.status.done)) ∧
  (∀ (i : Instr) (op : Op) (s t : State), i.op = some op → exec i s = .next t → t.irq = s.ctrl.ie) ∧
  (∀ (s t : State) (data : Word) (be : BitVec 4), s.rstN = true → s.pend = none → be.getLsbD 0 = true →
    exec (.wr 0x0C data be) s = .next t → t.irq = false)

/-- 40_commands.md R112, 70_reset_and_hazards.md R271: a run of presentable inputs ends: in as many steps as there are
inputs, and one more, no input is left and PEND is none. That the engine takes its turn after the last input is the
model's reading of the weak fairness of R112, and that engine turns and reset changes count as inputs is the model's
choice (log entry 1). -/
def Obligations.EveryRunOfPresentableInputsEnds : Prop :=
  ∀ s : State, s.inputsPresentable → (s.rstN = false → s.pend = none) →
    ∃ t, Host.Core.run Sys2Proof.core (s.events.length + 1) s = .next t ∧ t.runEnded

/-! ### Host programs -/

/-- 30_encoding.md R97 in part, 20_memory.md R71 in part: a POLL is one read and then itself again unless the word read
has `(rdata & mask) = value`; a WAITDONE is left exactly on a read with BUSY 0 and DONE 1. The host's moves are the
model's own (log entry 12), and so is rdata (log entry 2). -/
def Obligations.PollRepeatsItsReadUntilItsConditionHolds : Prop :=
  ∀ (s : State) (rest : List HostItem), s.rstN = true →
    (∀ (off : BitVec 8) (mask value : Word), aligned off = true →
      ∃ w, exec (.rd off) s = .next { s with rdata := some w } ∧
        Session.hostMove ⟨asmPoll off mask value ++ rest, s⟩ =
          .next ⟨if w &&& mask = value then rest else asmPoll off mask value ++ rest, { s with rdata := some w }⟩) ∧
    ∃ w, exec (.rd 0x10) s = .next { s with rdata := some w } ∧ Session.hostMove ⟨asmWaitDone ++ rest, s⟩ =
      .next ⟨if s.pend = none ∧ s.status.done = true then rest else asmWaitDone ++ rest, { s with rdata := some w }⟩
end

