-- ==== Sys2Proof/Laws/State.lean ====
section
/-! SUPPORT. What each named update of the state does to each field, true by definition. -/

namespace Sys2Proof.Machine

variable (s : State)

/-! ### `setCtrl` -/

@[simp] theorem State.setCtrl_ctrl (c : Ctrl) : (s.setCtrl c).ctrl = c := rfl
@[simp] theorem State.setCtrl_status (c : Ctrl) : (s.setCtrl c).status = s.status := rfl
@[simp] theorem State.setCtrl_pend (c : Ctrl) : (s.setCtrl c).pend = s.pend := rfl
@[simp] theorem State.setCtrl_keylen (c : Ctrl) : (s.setCtrl c).keylen = s.keylen := rfl
@[simp] theorem State.setCtrl_key (c : Ctrl) : (s.setCtrl c).key = s.key := rfl
@[simp] theorem State.setCtrl_challen (c : Ctrl) : (s.setCtrl c).challen = s.challen := rfl
@[simp] theorem State.setCtrl_chal (c : Ctrl) : (s.setCtrl c).chal = s.chal := rfl
@[simp] theorem State.setCtrl_seed (c : Ctrl) : (s.setCtrl c).seed = s.seed := rfl
@[simp] theorem State.setCtrl_code (c : Ctrl) : (s.setCtrl c).code = s.code := rfl
@[simp] theorem State.setCtrl_codestr (c : Ctrl) : (s.setCtrl c).codestr = s.codestr := rfl
@[simp] theorem State.setCtrl_rstN (c : Ctrl) : (s.setCtrl c).rstN = s.rstN := rfl
@[simp] theorem State.setCtrl_rdata (c : Ctrl) : (s.setCtrl c).rdata = s.rdata := rfl
@[simp] theorem State.setCtrl_events (c : Ctrl) : (s.setCtrl c).events = s.events := rfl

/-! ### `setStatus` -/

@[simp] theorem State.setStatus_ctrl (st : Status) : (s.setStatus st).ctrl = s.ctrl := rfl
@[simp] theorem State.setStatus_status (st : Status) : (s.setStatus st).status = st := rfl
@[simp] theorem State.setStatus_pend (st : Status) : (s.setStatus st).pend = s.pend := rfl
@[simp] theorem State.setStatus_keylen (st : Status) : (s.setStatus st).keylen = s.keylen := rfl
@[simp] theorem State.setStatus_key (st : Status) : (s.setStatus st).key = s.key := rfl
@[simp] theorem State.setStatus_challen (st : Status) : (s.setStatus st).challen = s.challen := rfl
@[simp] theorem State.setStatus_chal (st : Status) : (s.setStatus st).chal = s.chal := rfl
@[simp] theorem State.setStatus_seed (st : Status) : (s.setStatus st).seed = s.seed := rfl
@[simp] theorem State.setStatus_code (st : Status) : (s.setStatus st).code = s.code := rfl
@[simp] theorem State.setStatus_codestr (st : Status) : (s.setStatus st).codestr = s.codestr := rfl
@[simp] theorem State.setStatus_rstN (st : Status) : (s.setStatus st).rstN = s.rstN := rfl
@[simp] theorem State.setStatus_rdata (st : Status) : (s.setStatus st).rdata = s.rdata := rfl
@[simp] theorem State.setStatus_events (st : Status) : (s.setStatus st).events = s.events := rfl

/-! ### `setPend` -/

@[simp] theorem State.setPend_ctrl (p : Option Op) : (s.setPend p).ctrl = s.ctrl := rfl
@[simp] theorem State.setPend_status (p : Option Op) : (s.setPend p).status = s.status := rfl
@[simp] theorem State.setPend_pend (p : Option Op) : (s.setPend p).pend = p := rfl
@[simp] theorem State.setPend_keylen (p : Option Op) : (s.setPend p).keylen = s.keylen := rfl
@[simp] theorem State.setPend_key (p : Option Op) : (s.setPend p).key = s.key := rfl
@[simp] theorem State.setPend_challen (p : Option Op) : (s.setPend p).challen = s.challen := rfl
@[simp] theorem State.setPend_chal (p : Option Op) : (s.setPend p).chal = s.chal := rfl
@[simp] theorem State.setPend_seed (p : Option Op) : (s.setPend p).seed = s.seed := rfl
@[simp] theorem State.setPend_code (p : Option Op) : (s.setPend p).code = s.code := rfl
@[simp] theorem State.setPend_codestr (p : Option Op) : (s.setPend p).codestr = s.codestr := rfl
@[simp] theorem State.setPend_rstN (p : Option Op) : (s.setPend p).rstN = s.rstN := rfl
@[simp] theorem State.setPend_rdata (p : Option Op) : (s.setPend p).rdata = s.rdata := rfl
@[simp] theorem State.setPend_events (p : Option Op) : (s.setPend p).events = s.events := rfl

/-! ### `setKeylen` -/

@[simp] theorem State.setKeylen_ctrl (v : BitVec 7) : (s.setKeylen v).ctrl = s.ctrl := rfl
@[simp] theorem State.setKeylen_status (v : BitVec 7) : (s.setKeylen v).status = s.status := rfl
@[simp] theorem State.setKeylen_pend (v : BitVec 7) : (s.setKeylen v).pend = s.pend := rfl
@[simp] theorem State.setKeylen_keylen (v : BitVec 7) : (s.setKeylen v).keylen = v := rfl
@[simp] theorem State.setKeylen_key (v : BitVec 7) : (s.setKeylen v).key = s.key := rfl
@[simp] theorem State.setKeylen_challen (v : BitVec 7) : (s.setKeylen v).challen = s.challen := rfl
@[simp] theorem State.setKeylen_chal (v : BitVec 7) : (s.setKeylen v).chal = s.chal := rfl
@[simp] theorem State.setKeylen_seed (v : BitVec 7) : (s.setKeylen v).seed = s.seed := rfl
@[simp] theorem State.setKeylen_code (v : BitVec 7) : (s.setKeylen v).code = s.code := rfl
@[simp] theorem State.setKeylen_codestr (v : BitVec 7) : (s.setKeylen v).codestr = s.codestr := rfl
@[simp] theorem State.setKeylen_rstN (v : BitVec 7) : (s.setKeylen v).rstN = s.rstN := rfl
@[simp] theorem State.setKeylen_rdata (v : BitVec 7) : (s.setKeylen v).rdata = s.rdata := rfl
@[simp] theorem State.setKeylen_events (v : BitVec 7) : (s.setKeylen v).events = s.events := rfl

/-! ### `setKey` -/

@[simp] theorem State.setKey_ctrl (v : Vector Byte 64) : (s.setKey v).ctrl = s.ctrl := rfl
@[simp] theorem State.setKey_status (v : Vector Byte 64) : (s.setKey v).status = s.status := rfl
@[simp] theorem State.setKey_pend (v : Vector Byte 64) : (s.setKey v).pend = s.pend := rfl
@[simp] theorem State.setKey_keylen (v : Vector Byte 64) : (s.setKey v).keylen = s.keylen := rfl
@[simp] theorem State.setKey_key (v : Vector Byte 64) : (s.setKey v).key = v := rfl
@[simp] theorem State.setKey_challen (v : Vector Byte 64) : (s.setKey v).challen = s.challen := rfl
@[simp] theorem State.setKey_chal (v : Vector Byte 64) : (s.setKey v).chal = s.chal := rfl
@[simp] theorem State.setKey_seed (v : Vector Byte 64) : (s.setKey v).seed = s.seed := rfl
@[simp] theorem State.setKey_code (v : Vector Byte 64) : (s.setKey v).code = s.code := rfl
@[simp] theorem State.setKey_codestr (v : Vector Byte 64) : (s.setKey v).codestr = s.codestr := rfl
@[simp] theorem State.setKey_rstN (v : Vector Byte 64) : (s.setKey v).rstN = s.rstN := rfl
@[simp] theorem State.setKey_rdata (v : Vector Byte 64) : (s.setKey v).rdata = s.rdata := rfl
@[simp] theorem State.setKey_events (v : Vector Byte 64) : (s.setKey v).events = s.events := rfl

/-! ### `setChallen` -/

@[simp] theorem State.setChallen_ctrl (v : BitVec 6) : (s.setChallen v).ctrl = s.ctrl := rfl
@[simp] theorem State.setChallen_status (v : BitVec 6) : (s.setChallen v).status = s.status := rfl
@[simp] theorem State.setChallen_pend (v : BitVec 6) : (s.setChallen v).pend = s.pend := rfl
@[simp] theorem State.setChallen_keylen (v : BitVec 6) : (s.setChallen v).keylen = s.keylen := rfl
@[simp] theorem State.setChallen_key (v : BitVec 6) : (s.setChallen v).key = s.key := rfl
@[simp] theorem State.setChallen_challen (v : BitVec 6) : (s.setChallen v).challen = v := rfl
@[simp] theorem State.setChallen_chal (v : BitVec 6) : (s.setChallen v).chal = s.chal := rfl
@[simp] theorem State.setChallen_seed (v : BitVec 6) : (s.setChallen v).seed = s.seed := rfl
@[simp] theorem State.setChallen_code (v : BitVec 6) : (s.setChallen v).code = s.code := rfl
@[simp] theorem State.setChallen_codestr (v : BitVec 6) : (s.setChallen v).codestr = s.codestr := rfl
@[simp] theorem State.setChallen_rstN (v : BitVec 6) : (s.setChallen v).rstN = s.rstN := rfl
@[simp] theorem State.setChallen_rdata (v : BitVec 6) : (s.setChallen v).rdata = s.rdata := rfl
@[simp] theorem State.setChallen_events (v : BitVec 6) : (s.setChallen v).events = s.events := rfl

/-! ### `setChal` -/

@[simp] theorem State.setChal_ctrl (v : Vector Byte 32) : (s.setChal v).ctrl = s.ctrl := rfl
@[simp] theorem State.setChal_status (v : Vector Byte 32) : (s.setChal v).status = s.status := rfl
@[simp] theorem State.setChal_pend (v : Vector Byte 32) : (s.setChal v).pend = s.pend := rfl
@[simp] theorem State.setChal_keylen (v : Vector Byte 32) : (s.setChal v).keylen = s.keylen := rfl
@[simp] theorem State.setChal_key (v : Vector Byte 32) : (s.setChal v).key = s.key := rfl
@[simp] theorem State.setChal_challen (v : Vector Byte 32) : (s.setChal v).challen = s.challen := rfl
@[simp] theorem State.setChal_chal (v : Vector Byte 32) : (s.setChal v).chal = v := rfl
@[simp] theorem State.setChal_seed (v : Vector Byte 32) : (s.setChal v).seed = s.seed := rfl
@[simp] theorem State.setChal_code (v : Vector Byte 32) : (s.setChal v).code = s.code := rfl
@[simp] theorem State.setChal_codestr (v : Vector Byte 32) : (s.setChal v).codestr = s.codestr := rfl
@[simp] theorem State.setChal_rstN (v : Vector Byte 32) : (s.setChal v).rstN = s.rstN := rfl
@[simp] theorem State.setChal_rdata (v : Vector Byte 32) : (s.setChal v).rdata = s.rdata := rfl
@[simp] theorem State.setChal_events (v : Vector Byte 32) : (s.setChal v).events = s.events := rfl

/-! ### `setSeed` -/

@[simp] theorem State.setSeed_ctrl (v : DWord) : (s.setSeed v).ctrl = s.ctrl := rfl
@[simp] theorem State.setSeed_status (v : DWord) : (s.setSeed v).status = s.status := rfl
@[simp] theorem State.setSeed_pend (v : DWord) : (s.setSeed v).pend = s.pend := rfl
@[simp] theorem State.setSeed_keylen (v : DWord) : (s.setSeed v).keylen = s.keylen := rfl
@[simp] theorem State.setSeed_key (v : DWord) : (s.setSeed v).key = s.key := rfl
@[simp] theorem State.setSeed_challen (v : DWord) : (s.setSeed v).challen = s.challen := rfl
@[simp] theorem State.setSeed_chal (v : DWord) : (s.setSeed v).chal = s.chal := rfl
@[simp] theorem State.setSeed_seed (v : DWord) : (s.setSeed v).seed = v := rfl
@[simp] theorem State.setSeed_code (v : DWord) : (s.setSeed v).code = s.code := rfl
@[simp] theorem State.setSeed_codestr (v : DWord) : (s.setSeed v).codestr = s.codestr := rfl
@[simp] theorem State.setSeed_rstN (v : DWord) : (s.setSeed v).rstN = s.rstN := rfl
@[simp] theorem State.setSeed_rdata (v : DWord) : (s.setSeed v).rdata = s.rdata := rfl
@[simp] theorem State.setSeed_events (v : DWord) : (s.setSeed v).events = s.events := rfl

/-! ### `writeCode` -/

@[simp] theorem State.writeCode_ctrl (c : BitVec 20) (str : Vector Byte 6) : (s.writeCode c str).ctrl = s.ctrl := rfl
@[simp] theorem State.writeCode_status (c : BitVec 20) (str : Vector Byte 6) : (s.writeCode c str).status = s.status := rfl
@[simp] theorem State.writeCode_pend (c : BitVec 20) (str : Vector Byte 6) : (s.writeCode c str).pend = s.pend := rfl
@[simp] theorem State.writeCode_keylen (c : BitVec 20) (str : Vector Byte 6) : (s.writeCode c str).keylen = s.keylen := rfl
@[simp] theorem State.writeCode_key (c : BitVec 20) (str : Vector Byte 6) : (s.writeCode c str).key = s.key := rfl
@[simp] theorem State.writeCode_challen (c : BitVec 20) (str : Vector Byte 6) : (s.writeCode c str).challen = s.challen := rfl
@[simp] theorem State.writeCode_chal (c : BitVec 20) (str : Vector Byte 6) : (s.writeCode c str).chal = s.chal := rfl
@[simp] theorem State.writeCode_seed (c : BitVec 20) (str : Vector Byte 6) : (s.writeCode c str).seed = s.seed := rfl
@[simp] theorem State.writeCode_code (c : BitVec 20) (str : Vector Byte 6) : (s.writeCode c str).code = c := rfl
@[simp] theorem State.writeCode_codestr (c : BitVec 20) (str : Vector Byte 6) : (s.writeCode c str).codestr = str := rfl
@[simp] theorem State.writeCode_rstN (c : BitVec 20) (str : Vector Byte 6) : (s.writeCode c str).rstN = s.rstN := rfl
@[simp] theorem State.writeCode_rdata (c : BitVec 20) (str : Vector Byte 6) : (s.writeCode c str).rdata = s.rdata := rfl
@[simp] theorem State.writeCode_events (c : BitVec 20) (str : Vector Byte 6) : (s.writeCode c str).events = s.events := rfl

/-! ### `setRdata` -/

@[simp] theorem State.setRdata_ctrl (v : Word) : (s.setRdata v).ctrl = s.ctrl := rfl
@[simp] theorem State.setRdata_status (v : Word) : (s.setRdata v).status = s.status := rfl
@[simp] theorem State.setRdata_pend (v : Word) : (s.setRdata v).pend = s.pend := rfl
@[simp] theorem State.setRdata_keylen (v : Word) : (s.setRdata v).keylen = s.keylen := rfl
@[simp] theorem State.setRdata_key (v : Word) : (s.setRdata v).key = s.key := rfl
@[simp] theorem State.setRdata_challen (v : Word) : (s.setRdata v).challen = s.challen := rfl
@[simp] theorem State.setRdata_chal (v : Word) : (s.setRdata v).chal = s.chal := rfl
@[simp] theorem State.setRdata_seed (v : Word) : (s.setRdata v).seed = s.seed := rfl
@[simp] theorem State.setRdata_code (v : Word) : (s.setRdata v).code = s.code := rfl
@[simp] theorem State.setRdata_codestr (v : Word) : (s.setRdata v).codestr = s.codestr := rfl
@[simp] theorem State.setRdata_rstN (v : Word) : (s.setRdata v).rstN = s.rstN := rfl
@[simp] theorem State.setRdata_rdata (v : Word) : (s.setRdata v).rdata = some v := rfl
@[simp] theorem State.setRdata_events (v : Word) : (s.setRdata v).events = s.events := rfl

/-! ### `setRstN` -/

@[simp] theorem State.setRstN_ctrl (v : Bool) : (s.setRstN v).ctrl = s.ctrl := rfl
@[simp] theorem State.setRstN_status (v : Bool) : (s.setRstN v).status = s.status := rfl
@[simp] theorem State.setRstN_pend (v : Bool) : (s.setRstN v).pend = s.pend := rfl
@[simp] theorem State.setRstN_keylen (v : Bool) : (s.setRstN v).keylen = s.keylen := rfl
@[simp] theorem State.setRstN_key (v : Bool) : (s.setRstN v).key = s.key := rfl
@[simp] theorem State.setRstN_challen (v : Bool) : (s.setRstN v).challen = s.challen := rfl
@[simp] theorem State.setRstN_chal (v : Bool) : (s.setRstN v).chal = s.chal := rfl
@[simp] theorem State.setRstN_seed (v : Bool) : (s.setRstN v).seed = s.seed := rfl
@[simp] theorem State.setRstN_code (v : Bool) : (s.setRstN v).code = s.code := rfl
@[simp] theorem State.setRstN_codestr (v : Bool) : (s.setRstN v).codestr = s.codestr := rfl
@[simp] theorem State.setRstN_rstN (v : Bool) : (s.setRstN v).rstN = v := rfl
@[simp] theorem State.setRstN_rdata (v : Bool) : (s.setRstN v).rdata = s.rdata := rfl
@[simp] theorem State.setRstN_events (v : Bool) : (s.setRstN v).events = s.events := rfl

/-! ### `nextCycle` -/

@[simp] theorem State.nextCycle_ctrl (rest : List Event) : (s.nextCycle rest).ctrl = s.ctrl := rfl
@[simp] theorem State.nextCycle_status (rest : List Event) : (s.nextCycle rest).status = s.status := rfl
@[simp] theorem State.nextCycle_pend (rest : List Event) : (s.nextCycle rest).pend = s.pend := rfl
@[simp] theorem State.nextCycle_keylen (rest : List Event) : (s.nextCycle rest).keylen = s.keylen := rfl
@[simp] theorem State.nextCycle_key (rest : List Event) : (s.nextCycle rest).key = s.key := rfl
@[simp] theorem State.nextCycle_challen (rest : List Event) : (s.nextCycle rest).challen = s.challen := rfl
@[simp] theorem State.nextCycle_chal (rest : List Event) : (s.nextCycle rest).chal = s.chal := rfl
@[simp] theorem State.nextCycle_seed (rest : List Event) : (s.nextCycle rest).seed = s.seed := rfl
@[simp] theorem State.nextCycle_code (rest : List Event) : (s.nextCycle rest).code = s.code := rfl
@[simp] theorem State.nextCycle_codestr (rest : List Event) : (s.nextCycle rest).codestr = s.codestr := rfl
@[simp] theorem State.nextCycle_rstN (rest : List Event) : (s.nextCycle rest).rstN = s.rstN := rfl
@[simp] theorem State.nextCycle_rdata (rest : List Event) : (s.nextCycle rest).rdata = none := rfl
@[simp] theorem State.nextCycle_events (rest : List Event) : (s.nextCycle rest).events = rest := rfl

/-! ### `setEvents` -/

@[simp] theorem State.setEvents_ctrl (evs : List Event) : (s.setEvents evs).ctrl = s.ctrl := rfl
@[simp] theorem State.setEvents_status (evs : List Event) : (s.setEvents evs).status = s.status := rfl
@[simp] theorem State.setEvents_pend (evs : List Event) : (s.setEvents evs).pend = s.pend := rfl
@[simp] theorem State.setEvents_keylen (evs : List Event) : (s.setEvents evs).keylen = s.keylen := rfl
@[simp] theorem State.setEvents_key (evs : List Event) : (s.setEvents evs).key = s.key := rfl
@[simp] theorem State.setEvents_challen (evs : List Event) : (s.setEvents evs).challen = s.challen := rfl
@[simp] theorem State.setEvents_chal (evs : List Event) : (s.setEvents evs).chal = s.chal := rfl
@[simp] theorem State.setEvents_seed (evs : List Event) : (s.setEvents evs).seed = s.seed := rfl
@[simp] theorem State.setEvents_code (evs : List Event) : (s.setEvents evs).code = s.code := rfl
@[simp] theorem State.setEvents_codestr (evs : List Event) : (s.setEvents evs).codestr = s.codestr := rfl
@[simp] theorem State.setEvents_rstN (evs : List Event) : (s.setEvents evs).rstN = s.rstN := rfl
@[simp] theorem State.setEvents_rdata (evs : List Event) : (s.setEvents evs).rdata = s.rdata := rfl
@[simp] theorem State.setEvents_events (evs : List Event) : (s.setEvents evs).events = evs := rfl

/-! ### `clearOutputs` -/

@[simp] theorem State.clearOutputs_ctrl : s.clearOutputs.ctrl = s.ctrl := rfl
@[simp] theorem State.clearOutputs_status : s.clearOutputs.status = s.status := rfl
@[simp] theorem State.clearOutputs_pend : s.clearOutputs.pend = s.pend := rfl
@[simp] theorem State.clearOutputs_keylen : s.clearOutputs.keylen = s.keylen := rfl
@[simp] theorem State.clearOutputs_key : s.clearOutputs.key = s.key := rfl
@[simp] theorem State.clearOutputs_challen : s.clearOutputs.challen = s.challen := rfl
@[simp] theorem State.clearOutputs_chal : s.clearOutputs.chal = s.chal := rfl
@[simp] theorem State.clearOutputs_seed : s.clearOutputs.seed = s.seed := rfl
@[simp] theorem State.clearOutputs_code : s.clearOutputs.code = 0 := rfl
@[simp] theorem State.clearOutputs_codestr : s.clearOutputs.codestr = Vector.replicate 6 0 := rfl
@[simp] theorem State.clearOutputs_rstN : s.clearOutputs.rstN = s.rstN := rfl
@[simp] theorem State.clearOutputs_rdata : s.clearOutputs.rdata = s.rdata := rfl
@[simp] theorem State.clearOutputs_events : s.clearOutputs.events = s.events := rfl

/-! ### `zeroizeAll` -/

@[simp] theorem State.zeroizeAll_ctrl : s.zeroizeAll.ctrl = s.ctrl := rfl
@[simp] theorem State.zeroizeAll_status : s.zeroizeAll.status = s.status := rfl
@[simp] theorem State.zeroizeAll_pend : s.zeroizeAll.pend = s.pend := rfl
@[simp] theorem State.zeroizeAll_keylen : s.zeroizeAll.keylen = 0 := rfl
@[simp] theorem State.zeroizeAll_key : s.zeroizeAll.key = Vector.replicate 64 0 := rfl
@[simp] theorem State.zeroizeAll_challen : s.zeroizeAll.challen = 0 := rfl
@[simp] theorem State.zeroizeAll_chal : s.zeroizeAll.chal = Vector.replicate 32 0 := rfl
@[simp] theorem State.zeroizeAll_seed : s.zeroizeAll.seed = 0 := rfl
@[simp] theorem State.zeroizeAll_code : s.zeroizeAll.code = 0 := rfl
@[simp] theorem State.zeroizeAll_codestr : s.zeroizeAll.codestr = Vector.replicate 6 0 := rfl
@[simp] theorem State.zeroizeAll_rstN : s.zeroizeAll.rstN = s.rstN := rfl
@[simp] theorem State.zeroizeAll_rdata : s.zeroizeAll.rdata = s.rdata := rfl
@[simp] theorem State.zeroizeAll_events : s.zeroizeAll.events = s.events := rfl

/-! ### `finished` -/

@[simp] theorem State.finished_ctrl (err : BitVec 4) : (s.finished err).ctrl = s.ctrl := rfl
@[simp] theorem State.finished_status (err : BitVec 4) : (s.finished err).status = { s.status with errcode := err, done := true } := rfl
@[simp] theorem State.finished_pend (err : BitVec 4) : (s.finished err).pend = none := rfl
@[simp] theorem State.finished_keylen (err : BitVec 4) : (s.finished err).keylen = s.keylen := rfl
@[simp] theorem State.finished_key (err : BitVec 4) : (s.finished err).key = s.key := rfl
@[simp] theorem State.finished_challen (err : BitVec 4) : (s.finished err).challen = s.challen := rfl
@[simp] theorem State.finished_chal (err : BitVec 4) : (s.finished err).chal = s.chal := rfl
@[simp] theorem State.finished_seed (err : BitVec 4) : (s.finished err).seed = s.seed := rfl
@[simp] theorem State.finished_code (err : BitVec 4) : (s.finished err).code = s.code := rfl
@[simp] theorem State.finished_codestr (err : BitVec 4) : (s.finished err).codestr = s.codestr := rfl
@[simp] theorem State.finished_rstN (err : BitVec 4) : (s.finished err).rstN = s.rstN := rfl
@[simp] theorem State.finished_rdata (err : BitVec 4) : (s.finished err).rdata = s.rdata := rfl
@[simp] theorem State.finished_events (err : BitVec 4) : (s.finished err).events = s.events := rfl

/-! ### `dropWrite` -/

@[simp] theorem State.dropWrite_ctrl : s.dropWrite.ctrl = s.ctrl := rfl
@[simp] theorem State.dropWrite_status : s.dropWrite.status = { s.status with ovr := true } := rfl
@[simp] theorem State.dropWrite_pend : s.dropWrite.pend = s.pend := rfl
@[simp] theorem State.dropWrite_keylen : s.dropWrite.keylen = s.keylen := rfl
@[simp] theorem State.dropWrite_key : s.dropWrite.key = s.key := rfl
@[simp] theorem State.dropWrite_challen : s.dropWrite.challen = s.challen := rfl
@[simp] theorem State.dropWrite_chal : s.dropWrite.chal = s.chal := rfl
@[simp] theorem State.dropWrite_seed : s.dropWrite.seed = s.seed := rfl
@[simp] theorem State.dropWrite_code : s.dropWrite.code = s.code := rfl
@[simp] theorem State.dropWrite_codestr : s.dropWrite.codestr = s.codestr := rfl
@[simp] theorem State.dropWrite_rstN : s.dropWrite.rstN = s.rstN := rfl
@[simp] theorem State.dropWrite_rdata : s.dropWrite.rdata = s.rdata := rfl
@[simp] theorem State.dropWrite_events : s.dropWrite.events = s.events := rfl

/-! ### `writeCodeOf` -/

@[simp] theorem State.writeCodeOf_ctrl (k : List Byte) (v : DWord) : (s.writeCodeOf k v).ctrl = s.ctrl := rfl
@[simp] theorem State.writeCodeOf_status (k : List Byte) (v : DWord) : (s.writeCodeOf k v).status = s.status := rfl
@[simp] theorem State.writeCodeOf_pend (k : List Byte) (v : DWord) : (s.writeCodeOf k v).pend = s.pend := rfl
@[simp] theorem State.writeCodeOf_keylen (k : List Byte) (v : DWord) : (s.writeCodeOf k v).keylen = s.keylen := rfl
@[simp] theorem State.writeCodeOf_key (k : List Byte) (v : DWord) : (s.writeCodeOf k v).key = s.key := rfl
@[simp] theorem State.writeCodeOf_challen (k : List Byte) (v : DWord) : (s.writeCodeOf k v).challen = s.challen := rfl
@[simp] theorem State.writeCodeOf_chal (k : List Byte) (v : DWord) : (s.writeCodeOf k v).chal = s.chal := rfl
@[simp] theorem State.writeCodeOf_seed (k : List Byte) (v : DWord) : (s.writeCodeOf k v).seed = s.seed := rfl
@[simp] theorem State.writeCodeOf_code (k : List Byte) (v : DWord) : (s.writeCodeOf k v).code = codeFromSeed k v := rfl
@[simp] theorem State.writeCodeOf_codestr (k : List Byte) (v : DWord) : (s.writeCodeOf k v).codestr = formatCode (codeFromSeed k v) := rfl
@[simp] theorem State.writeCodeOf_rstN (k : List Byte) (v : DWord) : (s.writeCodeOf k v).rstN = s.rstN := rfl
@[simp] theorem State.writeCodeOf_rdata (k : List Byte) (v : DWord) : (s.writeCodeOf k v).rdata = s.rdata := rfl
@[simp] theorem State.writeCodeOf_events (k : List Byte) (v : DWord) : (s.writeCodeOf k v).events = s.events := rfl

/-! ### `resetAsserted` -/

@[simp] theorem State.resetAsserted_ctrl : s.resetAsserted.ctrl = State.reset.ctrl := rfl
@[simp] theorem State.resetAsserted_status : s.resetAsserted.status = State.reset.status := rfl
@[simp] theorem State.resetAsserted_pend : s.resetAsserted.pend = State.reset.pend := rfl
@[simp] theorem State.resetAsserted_keylen : s.resetAsserted.keylen = State.reset.keylen := rfl
@[simp] theorem State.resetAsserted_key : s.resetAsserted.key = State.reset.key := rfl
@[simp] theorem State.resetAsserted_challen : s.resetAsserted.challen = State.reset.challen := rfl
@[simp] theorem State.resetAsserted_chal : s.resetAsserted.chal = State.reset.chal := rfl
@[simp] theorem State.resetAsserted_seed : s.resetAsserted.seed = State.reset.seed := rfl
@[simp] theorem State.resetAsserted_code : s.resetAsserted.code = State.reset.code := rfl
@[simp] theorem State.resetAsserted_codestr : s.resetAsserted.codestr = State.reset.codestr := rfl
@[simp] theorem State.resetAsserted_rstN : s.resetAsserted.rstN = false := rfl
@[simp] theorem State.resetAsserted_rdata : s.resetAsserted.rdata = State.reset.rdata := rfl
@[simp] theorem State.resetAsserted_events : s.resetAsserted.events = s.events := rfl

end Sys2Proof.Machine
end

