-- ==== Sys2Proof/Laws/Ops.lean ====
section
/-! SUPPORT. What each shared operation does, once: the end of a command, lanes and strobes, byte buffers, the words of
CTRL and STATUS, the window's map. -/

namespace Sys2Proof.Machine

/-! ### The end of a command -/

/-- A code below 8 never faults. -/
theorem finish_next {err : BitVec 4} (h : err.toNat < 8) (s : State) : finish err s = .next (s.finished err) := by
  simp [finish, Nat.not_le.2 h]

@[simp] theorem finish_zero (s : State) : finish 0 s = .next (s.finished 0) := finish_next (by decide) s

@[simp] theorem raise_next (e : CommandError) (s : State) : raise e s = .next (s.finished e.code) :=
  finish_next (by cases e <;> decide) s

/-! ### Lanes and strobes -/

theorem flagBit_getLsbD (b : Bool) (i : Nat) : (flagBit b).getLsbD i = (decide (i = 0) && b) := by
  cases b
  · simp [flagBit]
  · cases i <;> simp [flagBit]

theorem strobeMask_getLsbD_fin : ∀ (be : BitVec 4) (i : Fin 32), (strobeMask be).getLsbD i = be.getLsbD (i / 8) := by
  decide +kernel

/-- The byte mask of the strobes: bit `i` is set when the strobe of its lane is. -/
theorem strobeMask_getLsbD (be : BitVec 4) {i : Nat} (h : i < 32) :
    (strobeMask be).getLsbD i = be.getLsbD (i / 8) := strobeMask_getLsbD_fin be ⟨i, h⟩

/-- A strobed bit of a write's `d`. -/
theorem masked_getLsbD (data : Word) (be : BitVec 4) {i : Nat} (h : i < 32) :
    (data &&& strobeMask be).getLsbD i = (data.getLsbD i && be.getLsbD (i / 8)) := by
  simp [strobeMask_getLsbD be h]

/-- The strobed merge, bit by bit: a strobed lane is the data's, the others are the old word's. -/
theorem merge_getLsbD (old data : Word) (be : BitVec 4) {i : Nat} (h : i < 32) :
    (merge old data be).getLsbD i = if be.getLsbD (i / 8) then data.getLsbD i else old.getLsbD i := by
  simp only [merge, BitVec.getLsbD_or, BitVec.getLsbD_and, BitVec.getLsbD_not, strobeMask_getLsbD be h, h]
  cases be.getLsbD (i / 8) <;> simp

theorem lane_getLsbD (data : Word) (j i : Nat) :
    (lane data j).getLsbD i = (decide (i < 8) && data.getLsbD (8 * j + i)) := by
  simp [lane]

/-- The lanes of a word put together from four bytes. -/
theorem lane_lanes (b0 b1 b2 b3 : Byte) :
    lane (lanes b0 b1 b2 b3) 0 = b0 ∧ lane (lanes b0 b1 b2 b3) 1 = b1 ∧ lane (lanes b0 b1 b2 b3) 2 = b2 ∧
      lane (lanes b0 b1 b2 b3) 3 = b3 := by
  refine ⟨?_, ?_, ?_, ?_⟩ <;>
  · apply BitVec.eq_of_getLsbD_eq
    intro i hi
    interval_cases i <;> simp [lane, lanes]

/-! ### Byte buffers -/

theorem writeLane_getElem {n : Nat} (buf : Vector Byte n) (w : Nat) (data : Word) (be : BitVec 4) (j i : Nat)
    (h : i < n) :
    (writeLane buf w data be j)[i] = if be.getLsbD j = true ∧ 4 * w + j = i then lane data j else buf[i] := by
  unfold writeLane
  split <;> rename_i hb
  · simp [Vector.getElem_setIfInBounds, hb]
  · simp [hb]

/-- A strobed write of word `w`: byte `i` takes its lane if it lies in the word and its lane is strobed. -/
theorem writeWord_getElem {n : Nat} (buf : Vector Byte n) (w : Nat) (data : Word) (be : BitVec 4) (i : Nat)
    (h : i < n) :
    (writeWord buf w data be)[i] = if i / 4 = w ∧ be.getLsbD (i % 4) = true then lane data (i % 4) else buf[i] := by
  simp only [writeWord, writeLane_getElem]
  by_cases hw : i / 4 = w
  · have h4 : i % 4 < 4 := Nat.mod_lt _ (by decide)
    have hi : ∀ j, 4 * w + j = i ↔ j = i % 4 := by omega
    simp only [hi, hw, true_and]
    generalize i % 4 = m at h4
    interval_cases m <;> simp
  · have hj : ∀ j, j < 4 → 4 * w + j ≠ i := by omega
    simp only [hw, false_and, if_false, hj 0 (by decide), hj 1 (by decide), hj 2 (by decide), hj 3 (by decide),
      and_false]

/-! ### The words of CTRL and STATUS -/

/-- CTRL's layout (10_state.md R25). -/
theorem ctrlWord_getLsbD (c : Ctrl) {i : Nat} (h : i < 32) :
    (ctrlWord c).getLsbD i =
      if i = 0 then c.ie else if i = 1 then c.klenChk else if i = 2 then c.clenChk
      else if 8 ≤ i ∧ i < 15 then c.klenReq.getLsbD (i - 8)
      else if 16 ≤ i ∧ i < 22 then c.clenReq.getLsbD (i - 16) else false := by
  simp only [ctrlWord, BitVec.getLsbD_or, BitVec.getLsbD_shiftLeft, BitVec.getLsbD_setWidth, flagBit_getLsbD, h]
  interval_cases i <;> simp

/-- Taking CTRL's fields from the word it reads gives CTRL back. -/
theorem ctrlOfWord_ctrlWord (c : Ctrl) : ctrlOfWord (ctrlWord c) = c := by
  have e : ∀ k n, n + k ≤ 32 → ∀ (v : BitVec k), (∀ i, i < k → (ctrlWord c).getLsbD (n + i) = v.getLsbD i) →
      (ctrlWord c).extractLsb' n k = v := by
    intro k n _ v hv
    apply BitVec.eq_of_getLsbD_eq
    intro i hi
    simp [hi, hv i hi]
  have h7 : (ctrlWord c).extractLsb' 8 7 = c.klenReq := by
    refine e 7 8 (by decide) _ fun i hi => ?_
    rw [ctrlWord_getLsbD c (by omega)]
    interval_cases i <;> simp
  have h6 : (ctrlWord c).extractLsb' 16 6 = c.clenReq := by
    refine e 6 16 (by decide) _ fun i hi => ?_
    rw [ctrlWord_getLsbD c (by omega)]
    interval_cases i <;> simp
  have h0 := ctrlWord_getLsbD c (i := 0) (by decide)
  have h1 := ctrlWord_getLsbD c (i := 1) (by decide)
  have h2 := ctrlWord_getLsbD c (i := 2) (by decide)
  simp only [ctrlOfWord, h7, h6, h0, h1, h2]
  simp

/-! ### The window -/

/-- A register's name stands for an aligned offset of that register (30_encoding.md R96). -/
theorem regAt_offset (r : Reg) (off : BitVec 8) (h : r.offset = some off) : regAt off = r ∧ aligned off = true := by
  cases r with
  | key w => cases h; revert w; decide
  | chal w => cases h; revert w; decide
  | reserved => cases h
  | _ => cases h; decide

/-- PARAM reads 0x00062040 (10_state.md R24). -/
theorem paramWord_eq : paramWord = 0x00062040 := by decide

end Sys2Proof.Machine
end

