-- ==== Sys2Proof/Laws/Bus.lean ====
section
/-! SUPPORT. What acceptance and a bus write can do, once. -/

namespace Sys2Proof.Machine

variable (d data : Word) (be : BitVec 4) (s : State)

/-! ### Acceptance (40_commands.md R110) -/

@[simp] theorem accept_ctrl : (accept d s).ctrl = s.ctrl := by unfold accept; split <;> rfl
@[simp] theorem accept_status : (accept d s).status = s.status.accepted d := by unfold accept; split <;> rfl
@[simp] theorem accept_pend : (accept d s).pend = some (decodeOp d) := by unfold accept; split <;> rfl
@[simp] theorem accept_keylen : (accept d s).keylen = s.keylen := by unfold accept; split <;> rfl
@[simp] theorem accept_key : (accept d s).key = s.key := by unfold accept; split <;> rfl
@[simp] theorem accept_challen : (accept d s).challen = s.challen := by unfold accept; split <;> rfl
@[simp] theorem accept_chal : (accept d s).chal = s.chal := by unfold accept; split <;> rfl
@[simp] theorem accept_seed : (accept d s).seed = s.seed := by unfold accept; split <;> rfl
@[simp] theorem accept_rstN : (accept d s).rstN = s.rstN := by unfold accept; split <;> rfl
@[simp] theorem accept_rdata : (accept d s).rdata = s.rdata := by unfold accept; split <;> rfl
@[simp] theorem accept_events : (accept d s).events = s.events := by unfold accept; split <;> rfl

/-- The outputs after acceptance: cleared for GENERATE, GENERATE_SEED and CLEAR, else kept. -/
theorem accept_code : (accept d s).code = if Op.clearsOutputs (decodeOp d) then 0 else s.code := by
  unfold accept; split <;> rfl

theorem accept_codestr :
    (accept d s).codestr = if Op.clearsOutputs (decodeOp d) then Vector.replicate 6 0 else s.codestr := by
  unfold accept; split <;> rfl

/-! ### CTRL while busy (70_reset_and_hazards.md R261) -/

/-- A CTRL write while busy changes IE, if lane 0 is strobed, and OVR, if a policy field would change. -/
theorem ctrlWriteWhileBusy_eq :
    ctrlWriteWhileBusy d be s =
      { s with
        ctrl := { s.ctrl with ie := if be.getLsbD 0 then d.getLsbD 0 else s.ctrl.ie },
        status := { s.status with ovr := s.status.ovr || policyChanged s.ctrl d be } } := by
  unfold ctrlWriteWhileBusy
  cases hb : be.getLsbD 0 <;> cases hp : policyChanged s.ctrl d be <;>
    simp [State.dropWrite, State.setStatus, State.setCtrl]

/-! ### A bus write (20_memory.md R65) -/

/-- Everything a bus write can do. -/
theorem busWrite_cases (off : BitVec 8) :
    busWrite off data be s = s ∨
    (s.busy = true ∧ busWrite off data be s = s.dropWrite) ∨
    (s.busy = true ∧ regAt off = .ctrl ∧
      busWrite off data be s = ctrlWriteWhileBusy (data &&& strobeMask be) be s) ∨
    (s.busy = false ∧ regAt off = .ctrl ∧ ∃ c, busWrite off data be s = s.setCtrl c) ∨
    (s.busy = false ∧ regAt off = .cmd ∧ be.getLsbD 0 = true ∧
      busWrite off data be s = accept (data &&& strobeMask be) s) ∨
    (regAt off = .status ∧ be.getLsbD 0 = true ∧
      busWrite off data be s = s.setStatus (s.status.w1c (data &&& strobeMask be))) ∨
    (s.busy = false ∧
      ((∃ v, busWrite off data be s = s.setKeylen v) ∨ (∃ v, busWrite off data be s = s.setChallen v) ∨
        (∃ v, busWrite off data be s = s.setSeed v) ∨
        (∃ w, regAt off = .key w ∧ busWrite off data be s = s.setKey (writeWord s.key w.toNat data be)) ∨
        (∃ w, regAt off = .chal w ∧ busWrite off data be s = s.setChal (writeWord s.chal w.toNat data be)))) := by
  by_cases hbe : be = 0#4
  · exact .inl (by simp [busWrite, hbe])
  · cases hb : s.busy <;> cases hr : regAt off <;> cases h0 : be[0] <;>
      simp only [busWrite, BitVec.ofNat_eq_ofNat, hbe, hb, hr, h0, inputWrite, BitVec.getLsbD_eq_getElem,
        Nat.zero_lt_succ, if_true, if_false, Bool.false_eq_true] <;>
      simp
    all_goals first
      | exact .inr (.inl ⟨_, rfl⟩)
      | exact .inr (.inr (.inl ⟨_, rfl⟩))
      | exact .inr (.inr (.inr ⟨_, rfl⟩))

end Sys2Proof.Machine
end

