-- ==== Sys2Proof/Laws/Pipeline.lean ====
section
/-! SUPPORT. Lengths and ranges of the pipeline's values, and what the digit loop of the parse computes. -/

namespace Sys2Proof.Machine

/-! ### Lengths -/

@[simp] theorem beBytes4_length (v : Word) : (beBytes4 v).length = 4 := rfl

@[simp] theorem beBytes8_length (v : DWord) : (beBytes8 v).length = 8 := rfl

@[simp] theorem sha1Output_length (h : Sha1Vars) : (sha1Output h).length = 20 := rfl

@[simp] theorem sha1_length (m : List Byte) : (sha1 m).length = 20 := rfl

@[simp] theorem xorPad_length (k : List Byte) (p : Byte) : (xorPad k p).length = k.length := by simp [xorPad]

/-- The key block of a key of at most 64 bytes has 64 bytes. -/
theorem hmacKeyBlock_length {k : List Byte} (h : k.length ≤ 64) : (hmacKeyBlock k).length = 64 := by
  rw [hmacKeyBlock, if_neg (Nat.not_lt.2 h)]
  simp only [Config.sha1Block, List.length_append, List.length_replicate]
  omega

theorem sha1Pad_length (m : List Byte) :
    (sha1Pad m).length = m.length + 1 + (119 - m.length % 64) % 64 + 8 := by
  simp only [sha1Pad, List.length_append, List.length_replicate, List.length_singleton, beBytes8_length]

@[simp] theorem sha1Blocks_length (p : List Byte) : (sha1Blocks p).length = p.length / 64 := by
  simp [sha1Blocks, Config.sha1Block]

theorem sha1Extend_length (n : Nat) (ws : List Word) : (sha1Extend n ws).length = ws.length + n := by
  induction n generalizing ws with
  | zero => rfl
  | succ n ih => simp only [sha1Extend, ih, List.length_cons]; omega

@[simp] theorem secret_length (s : State) : s.secret.length = min s.keylen.toNat 64 := by simp [State.secret]

/-! ### Ranges -/

/-- A code is below 10^6 (43_truncate_format.md R204). -/
theorem truncate_lt (digest : List Byte) : (truncate digest).toNat < 1000000 := by
  have : (truncMasked digest).toNat % 1000000 < 1000000 := Nat.mod_lt _ (by decide)
  simp only [truncate, Config.modulus, BitVec.toNat_ofNat]
  omega

theorem codeFromSeed_lt (k : List Byte) (seed : DWord) : (codeFromSeed k seed).toNat < 1000000 := truncate_lt _

/-- A formatted digit is an ASCII digit. -/
theorem digitAt_toNat (code : BitVec 20) (k : Nat) : (digitAt code k).toNat = 0x30 + code.toNat / 10 ^ k % 10 := by
  have : code.toNat / 10 ^ k % 10 < 10 := Nat.mod_lt _ (by decide)
  rw [digitAt, BitVec.toNat_add, BitVec.toNat_ofNat, show BitVec.toNat (0x30 : Byte) = 0x30 from rfl]
  omega

/-! ### The parse -/

/-- The value of a digit string read on from `acc`. -/
def digitsValue (ds : List Byte) (acc : Nat) : Nat := ds.foldl (fun a b => a * 10 + (b.toNat - 0x30)) acc

/-- The digit loop answers exactly when every byte is a digit, and then the decimal value. -/
theorem parseDigits_eq (ds : List Byte) (acc : Nat) :
    parseDigits ds acc = if ds.all isDigit then some (digitsValue ds acc) else none := by
  induction ds generalizing acc with
  | nil => rfl
  | cons b rest ih => cases hb : isDigit b <;> simp [parseDigits, hb, ih, digitsValue]

end Sys2Proof.Machine
end

