-- ==== Sys2Proof/Laws/Commands.lean ====
section
/-! SUPPORT. What a command's completion can do, once. -/

namespace Sys2Proof.Machine

variable (s : State)

theorem execNop_eq : execNop s = .next (s.finished 0) := finish_zero s

theorem execClear_eq : execClear s = .next (s.finished 0) := finish_zero s

theorem execZeroize_eq : execZeroize s = .next (s.zeroizeAll.finished 0) := finish_zero _

/-- PARSE: a policy error, a parse error, or the seed (40_commands.md R116). -/
theorem execParse_cases :
    execParse s = .next (s.finished 7) ∨ execParse s = .next (s.finished 1) ∨
      ∃ v, parseChallenge s.challengeText s.challen.toNat = some v ∧
        execParse s = .next ((s.setSeed v).finished 0) := by
  unfold execParse
  split
  · exact .inl (raise_next _ s)
  · split
    · exact .inr (.inl (raise_next _ s))
    · rename_i v hv
      exact .inr (.inr ⟨v, hv, finish_zero _⟩)

/-- GENERATE_SEED: a policy error, a key error, or the code of SEED (40_commands.md R118). -/
theorem execGenerateSeed_cases :
    execGenerateSeed s = .next (s.finished 6) ∨ execGenerateSeed s = .next (s.finished 2) ∨
      execGenerateSeed s = .next ((s.writeCodeOf s.secret s.seed).finished 0) := by
  unfold execGenerateSeed
  split
  · exact .inl (raise_next _ s)
  · split
    · exact .inr (.inl (raise_next _ s))
    · exact .inr (.inr (finish_zero _))

/-- GENERATE: a policy error, a parse error, a key error after the seed is written, or the seed and its code
(40_commands.md R120). -/
theorem execGenerate_cases :
    execGenerate s = .next (s.finished 6) ∨ execGenerate s = .next (s.finished 7) ∨
      execGenerate s = .next (s.finished 1) ∨
      ∃ v, parseChallenge s.challengeText s.challen.toNat = some v ∧
        (execGenerate s = .next ((s.setSeed v).finished 2) ∨
          execGenerate s = .next (((s.setSeed v).writeCodeOf s.secret v).finished 0)) := by
  unfold execGenerate
  split
  · exact .inl (raise_next _ s)
  split
  · exact .inr (.inl (raise_next _ s))
  split
  · exact .inr (.inr (.inl (raise_next _ s)))
  · rename_i v hv
    split
    · exact .inr (.inr (.inr ⟨v, hv, .inl (raise_next _ _)⟩))
    · exact .inr (.inr (.inr ⟨v, hv, .inr (finish_zero _)⟩))

/-- What a command leaves before its epilogue. -/
inductive Performed (s : State) : Op → State → BitVec 4 → Prop
  | nop : Performed s .nop s 0
  | clear : Performed s .clear s 0
  | zeroize : Performed s .zeroize s.zeroizeAll 0
  | illegal : Performed s .illegal s 5
  | parseFailed (e : BitVec 4) (h : e = 7 ∨ e = 1) : Performed s .parse s e
  | parsed (v : DWord) : Performed s .parse (s.setSeed v) 0
  | seedFailed (e : BitVec 4) (h : e = 6 ∨ e = 2) : Performed s .generateSeed s e
  | seedDone : Performed s .generateSeed (s.writeCodeOf s.secret s.seed) 0
  | generateFailed (e : BitVec 4) (h : e = 6 ∨ e = 7 ∨ e = 1) : Performed s .generate s e
  | generateNoKey (v : DWord) : Performed s .generate (s.setSeed v) 2
  | generated (v : DWord) : Performed s .generate ((s.setSeed v).writeCodeOf s.secret v) 0

/-- A command always completes, with one of these effects. -/
theorem exec_command {i : Instr} {op : Op} (h : i.op = some op) :
    ∃ u e, exec i s = .next (u.finished e) ∧ Performed s op u e := by
  cases i with
  | nop => cases h; exact ⟨_, _, execNop_eq s, .nop⟩
  | clear => cases h; exact ⟨_, _, execClear_eq s, .clear⟩
  | zeroize => cases h; exact ⟨_, _, execZeroize_eq s, .zeroize⟩
  | illegalLow _ => cases h; exact ⟨_, _, raise_next .illegalCommand s, .illegal⟩
  | illegalHigh _ => cases h; exact ⟨_, _, raise_next .illegalCommand s, .illegal⟩
  | illegalWord _ _ => cases h; exact ⟨_, _, raise_next .illegalCommand s, .illegal⟩
  | parse =>
    cases h
    obtain h | h | ⟨v, -, h⟩ := execParse_cases s
    · exact ⟨_, _, h, .parseFailed _ (.inl rfl)⟩
    · exact ⟨_, _, h, .parseFailed _ (.inr rfl)⟩
    · exact ⟨_, _, h, .parsed v⟩
  | generateSeed =>
    cases h
    obtain h | h | h := execGenerateSeed_cases s
    · exact ⟨_, _, h, .seedFailed _ (.inl rfl)⟩
    · exact ⟨_, _, h, .seedFailed _ (.inr rfl)⟩
    · exact ⟨_, _, h, .seedDone⟩
  | generate =>
    cases h
    obtain h | h | h | ⟨v, -, h | h⟩ := execGenerate_cases s
    · exact ⟨_, _, h, .generateFailed _ (.inl rfl)⟩
    · exact ⟨_, _, h, .generateFailed _ (.inr (.inl rfl))⟩
    · exact ⟨_, _, h, .generateFailed _ (.inr (.inr rfl))⟩
    · exact ⟨_, _, h, .generateNoKey v⟩
    · exact ⟨_, _, h, .generated v⟩
  | rd _ => cases h
  | wr _ _ _ => cases h

/-- The outcome code of a command is one HMACC produces (60_exceptions.md R220). -/
theorem Performed.produced {s u : State} {op : Op} {e : BitVec 4} (h : Performed s op u e) : producedCode e := by
  unfold producedCode
  cases h with
  | parseFailed e h | seedFailed e h => obtain rfl | rfl := h <;> simp
  | generateFailed e h => obtain rfl | rfl | rfl := h <;> simp
  | _ => simp

end Sys2Proof.Machine
end

