-- ==== Sys2Proof/Laws/Exec.lean ====
section
/-! SUPPORT. RD and WR through their one operation each, and the decoding of a write's command word. -/

namespace Sys2Proof.Machine

variable {off : BitVec 8} {data : Word} {be : BitVec 4} {s : State}

/-- An aligned read out of reset. -/
theorem exec_rd (ha : aligned off = true) (hr : s.rstN = true) :
    exec (.rd off) s = .next (s.setRdata (busRead off s)) := by
  simp only [exec, execRd, ha, hr, if_true, Bool.true_eq_false, if_false]

/-- An aligned read in reset. -/
theorem exec_rd_low (ha : aligned off = true) (hr : s.rstN = false) :
    exec (.rd off) s = .next (s.setRdata 0) := by
  simp only [exec, execRd, ha, hr, Bool.false_eq_true, Bool.true_eq_false, if_false]

/-- An aligned write out of reset. -/
theorem exec_wr (ha : aligned off = true) (hr : s.rstN = true) :
    exec (.wr off data be) s = .next (busWrite off data be s) := by
  simp only [exec, execWr, ha, hr, if_true, Bool.true_eq_false, if_false]

/-- An aligned write in reset. -/
theorem exec_wr_low (ha : aligned off = true) (hr : s.rstN = false) :
    exec (.wr off data be) s = .next s := by
  simp only [exec, execWr, ha, hr, Bool.false_eq_true, Bool.true_eq_false, if_false]

/-- The shape of an aligned offset. -/
theorem aligned_eq (ha : aligned off = true) : ∃ k, k < 64 ∧ off = BitVec.ofNat 8 (4 * k) :=
  ⟨off.toNat / 4, by omega, by revert off; decide⟩

/-- The high and the low part of a command word, as numbers. -/
theorem commandWord_toNat (d : Word) :
    (d.extractLsb' 4 28).toNat = d.toNat / 16 ∧ (d.extractLsb' 0 4).toNat = d.toNat % 16 := by
  constructor <;> simp only [BitVec.extractLsb'_toNat, Nat.shiftRight_eq_div_pow] <;> omega

/-- A command word is its two fields. -/
theorem commandWord_split (d : Word) : (d.extractLsb' 4 28 ++ d.extractLsb' 0 4 : Word) = d := by
  apply BitVec.eq_of_getLsbD_eq
  intro i hi
  rw [BitVec.getLsbD_append]
  split
  · simp [*]
  · simp [show i - 4 < 28 by omega, show 4 + (i - 4) = i by omega]

/-- A word with a bit of 31:4 set is the default ILLEGAL row's. -/
theorem decodeCommand_reserved {d : Word} (h : d.extractLsb' 4 28 ≠ 0) :
    decodeCommand d = .illegalWord (d.extractLsb' 0 4) (d.extractLsb' 4 28) := by
  have ne : ∀ c : Word, c.extractLsb' 4 28 = 0 → d ≠ c := by rintro c hc rfl; exact h hc
  have nem : ∀ c m : Word, c.extractLsb' 4 28 = 0 → m.extractLsb' 4 28 = BitVec.allOnes 28 → d &&& m ≠ c := by
    intro c m hc hm he
    have := BitVec.extractLsb'_and (x := d) (y := m) (start := 4) (len := 28)
    rw [he, hc, hm, BitVec.and_allOnes] at this
    exact h this.symm
  unfold decodeCommand
  rw [if_neg (ne _ (by decide)), if_neg (ne _ (by decide)), if_neg (ne _ (by decide)), if_neg (ne _ (by decide)),
    if_neg (ne _ (by decide)), if_neg (ne _ (by decide)), if_neg (nem _ _ (by decide) (by decide)),
    if_neg (nem _ _ (by decide) (by decide))]

/-- The table's decoder and `DecodeCmd` name the same operation. -/
theorem decodeCommand_op (d : Word) : (decodeCommand d).op = some (decodeOp d) := by
  by_cases hr : d.extractLsb' 4 28 = 0
  · have small : ∀ x : BitVec 4, (decodeCommand (0#28 ++ x)).op = some (decodeOp (0#28 ++ x)) := by decide
    have hd := commandWord_split d
    rw [hr] at hd
    exact hd ▸ small (d.extractLsb' 0 4)
  · rw [decodeCommand_reserved hr, decodeOp, if_pos hr]
    rfl

/-- `DecodeCmd` on the word's number. -/
theorem decodeOp_toNat (d : Word) : decodeOp d =
    if 16 ≤ d.toNat then .illegal
    else match d.toNat with
      | 0x0 => .nop
      | 0x1 => .generate
      | 0x2 => .generateSeed
      | 0x3 => .parse
      | 0x4 => .clear
      | 0x5 => .zeroize
      | _ => .illegal := by
  obtain ⟨h1, h2⟩ := commandWord_toNat d
  have hz : d.extractLsb' 4 28 = 0 ↔ d.toNat / 16 = 0 := by
    rw [← BitVec.toNat_inj, h1]; rfl
  unfold decodeOp
  split
  · rename_i h; rw [if_pos (by have := mt hz.2 h; omega)]
  · rename_i h
    have : d.toNat / 16 = 0 := hz.1 (by simpa using h)
    rw [if_neg (by omega), h2, Nat.mod_eq_of_lt (by omega)] <;> rfl

end Sys2Proof.Machine
end

