-- ==== Sys2Proof/Laws/PerInstr.lean ====
section
/-! SUPPORT. Per instruction: the encoding of a well-formed instruction falls into its own row of spec/opcode_table.json,
the rows tried in the table's order (the last ILLEGAL row is the default, of lowest priority). -/

namespace Sys2Proof.Laws.TableRow

/-- A row's match and mask: over a command word, or over a transaction record. -/
inductive Row where
  | cmd32 (pattern mask : Word)
  | bus64 (pattern mask : DWord)
  deriving DecidableEq, Repr

/-- A code falls into a row. -/
def Row.covers : Row → Code → Bool
  | .cmd32 p m, .command d => d &&& m == p
  | .bus64 p m, .record r => r &&& m == p
  | .cmd32 _ _, .record _ => false
  | .bus64 _ _, .command _ => false

/-- The rows of spec/opcode_table.json, in its order. -/
def rows : List Row :=
  [.cmd32 0x00000000 0xFFFFFFFF, .cmd32 0x00000001 0xFFFFFFFF, .cmd32 0x00000002 0xFFFFFFFF,
   .cmd32 0x00000003 0xFFFFFFFF, .cmd32 0x00000004 0xFFFFFFFF, .cmd32 0x00000005 0xFFFFFFFF,
   .cmd32 0x00000006 0xFFFFFFFE, .cmd32 0x00000008 0xFFFFFFF8, .cmd32 0x00000000 0x00000000,
   .bus64 0x0000100000000000 0xFFFFF00300000000, .bus64 0x0000200000000000 0xFFFFF00300000000]

/-- The number of an instruction's row. -/
def rowOf : Instr → Nat
  | .nop => 0
  | .generate => 1
  | .generateSeed => 2
  | .parse => 3
  | .clear => 4
  | .zeroize => 5
  | .illegalLow _ => 6
  | .illegalHigh _ => 7
  | .illegalWord _ _ => 8
  | .rd _ => 9
  | .wr _ _ _ => 10

/-- The first row that covers a well-formed instruction's code is the instruction's. -/
abbrev Statement (i : Instr) : Prop :=
  i.wellFormed = true → rows.findIdx? (fun row => row.covers (encode i)) = some (rowOf i)

theorem nop : Statement .nop := by decide

theorem generate : Statement .generate := by decide

theorem generateSeed : Statement .generateSeed := by decide

theorem parse : Statement .parse := by decide

theorem clear : Statement .clear := by decide

theorem zeroize : Statement .zeroize := by decide

theorem illegalLow (low : BitVec 1) : Statement (.illegalLow low) := by revert low; decide

theorem illegalHigh (low : BitVec 3) : Statement (.illegalHigh low) := by revert low; decide

/-- A word with a bit of 31:4 set is not covered by a row whose mask has those bits and whose pattern has them zero. -/
theorem not_covered (op : BitVec 4) (rsvd : BitVec 28) (h : rsvd ≠ 0) (p m : Word) (hp : p.extractLsb' 4 28 = 0)
    (hm : m.extractLsb' 4 28 = BitVec.allOnes 28) : (Row.cmd32 p m).covers (.command (rsvd ++ op)) = false := by
  simp only [Row.covers, beq_eq_false_iff_ne]
  intro he
  refine h (BitVec.eq_of_getLsbD_eq fun i hi => ?_)
  have h1 := congrArg (fun w : Word => w.getLsbD (4 + i)) he
  have h2 := congrArg (fun w : BitVec 28 => w.getLsbD i) hp
  have h3 := congrArg (fun w : BitVec 28 => w.getLsbD i) hm
  simp only [BitVec.getLsbD_and, BitVec.getLsbD_append, BitVec.getLsbD_extractLsb', BitVec.getLsbD_allOnes, hi,
    decide_true, Bool.true_and] at h1 h2 h3
  rw [h3, h2] at h1
  simpa using h1

theorem illegalWord (op : BitVec 4) (rsvd : BitVec 28) : Statement (.illegalWord op rsvd) := by
  intro h
  have hn : rsvd ≠ 0 := by simpa [Instr.wellFormed] using h
  have c := not_covered op rsvd hn
  simp only [rows, encode, List.findIdx?_cons, rowOf]
  rw [c _ _ (by decide) (by decide), c _ _ (by decide) (by decide), c _ _ (by decide) (by decide),
    c _ _ (by decide) (by decide), c _ _ (by decide) (by decide), c _ _ (by decide) (by decide),
    c _ _ (by decide) (by decide), c _ _ (by decide) (by decide)]
  simp [Row.covers]

/-- The mask of the transaction rows keeps KIND, RSVD and OFF bits 1:0. -/
theorem record_masked (kind be : BitVec 4) (off : BitVec 8) (data : Word) :
    encodeRecord kind be off data &&& 0xFFFFF00300000000 = 0#16 ++ kind ++ 0#4 ++ (off &&& 3#8) ++ 0#32 := by
  have hm : (0xFFFFF00300000000 : DWord) = 0xFFFF#16 ++ 0xF#4 ++ 0#4 ++ 3#8 ++ 0#32 := by decide
  have hk : kind &&& 15#4 = kind := by revert kind; decide
  rw [hm, encodeRecord]
  change (0#16 ++ kind ++ be ++ off ++ data : BitVec (16 + 4 + 4 + 8 + 32)) &&&
    (0xFFFF#16 ++ 0xF#4 ++ 0#4 ++ 3#8 ++ 0#32 : BitVec (16 + 4 + 4 + 8 + 32)) = _
  simp only [BitVec.and_append, BitVec.and_zero, BitVec.zero_and, hk]

theorem aligned_and {off : BitVec 8} : aligned off = true → off &&& 3#8 = 0 := by revert off; decide

theorem rd (off : BitVec 8) : Statement (.rd off) := by revert off; decide

theorem wr (off : BitVec 8) (data : Word) (be : BitVec 4) : Statement (.wr off data be) := by
  intro h
  simp only [rows, encode, List.findIdx?_cons, rowOf, Row.covers, record_masked, aligned_and h]
  rfl

end Sys2Proof.Laws.TableRow
end

