-- ==== Sys2Proof/Laws/Step.lean ====
section
/-! SUPPORT. Everything a step can do, once. -/

namespace Sys2Proof.Machine

/-- An operation's instruction performs that operation. -/
theorem op_instr (op : Op) : op.instr.op = some op := by cases op <;> rfl

/-- A record that decodes is an aligned read or write, with the record's fields. -/
theorem decodeRecord_ok {r : DWord} {i : Instr} (h : decodeRecord r = .ok i) :
    aligned (recordOff r) = true ∧
      (i = .rd (recordOff r) ∨ i = .wr (recordOff r) (recordData r) (recordBe r)) := by
  unfold decodeRecord at h
  split at h
  · cases h
  split at h
  · cases h
  split at h
  · cases h
  rename_i ha
  refine ⟨by simpa using ha, ?_⟩
  split at h <;> cases h <;> simp

/-- The inputs whose step is the engine's turn: an engine event, or none left. -/
def EngineTurn (s : State) (rest : List Event) : Prop := s.events = .engine :: rest ∨ (s.events = [] ∧ rest = [])

theorem step_engine {s : State} {rest : List Event} (h : EngineTurn s rest) :
    step s = match s.rstN, s.pend with
      | true, some op => exec op.instr (s.nextCycle rest)
      | _, _ => .next (s.nextCycle rest) := by
  obtain h | ⟨h, rfl⟩ := h <;>
  · simp only [step, turnOf, h, engineTurn, State.nextCycle_rstN, State.nextCycle_pend]
    cases s.rstN <;> cases s.pend <;> rfl

/-- Everything a step that answers a next state can be: a read, a write, a completion, an idle turn of the engine, or
a change of rst_n. -/
theorem step_cases {s t : State} (h : step s = .next t) :
    (∃ r rest, s.events = .txn r :: rest ∧ aligned (recordOff r) = true ∧
      decodeRecord r = .ok (.rd (recordOff r)) ∧
      t = (s.nextCycle rest).setRdata (if s.rstN then busRead (recordOff r) s else 0)) ∨
    (∃ r rest, s.events = .txn r :: rest ∧ aligned (recordOff r) = true ∧
      decodeRecord r = .ok (.wr (recordOff r) (recordData r) (recordBe r)) ∧
      t = if s.rstN then busWrite (recordOff r) (recordData r) (recordBe r) (s.nextCycle rest)
        else s.nextCycle rest) ∨
    (∃ rest op u e, EngineTurn s rest ∧ s.rstN = true ∧ s.pend = some op ∧
      Performed (s.nextCycle rest) op u e ∧ t = u.finished e) ∨
    (∃ rest, EngineTurn s rest ∧ (s.rstN = false ∨ s.pend = none) ∧ t = s.nextCycle rest) ∨
    (∃ rest, s.events = .rstAssert :: rest ∧ t = (s.nextCycle rest).resetAsserted) ∨
    (∃ rest, s.events = .rstRelease :: rest ∧ t = (s.nextCycle rest).setRstN true) := by
  have engine : ∀ rest, EngineTurn s rest →
      (∃ rest op u e, EngineTurn s rest ∧ s.rstN = true ∧ s.pend = some op ∧
        Performed (s.nextCycle rest) op u e ∧ t = u.finished e) ∨
      (∃ rest, EngineTurn s rest ∧ (s.rstN = false ∨ s.pend = none) ∧ t = s.nextCycle rest) := by
    intro rest he
    rw [step_engine he] at h
    cases hr : s.rstN with
    | false => simp only [hr] at h; cases h; exact .inr ⟨rest, he, .inl rfl, rfl⟩
    | true =>
      cases hp : s.pend with
      | none => simp only [hr, hp] at h; cases h; exact .inr ⟨rest, he, .inr rfl, rfl⟩
      | some op =>
        simp only [hr, hp] at h
        obtain ⟨u, e, hx, hu⟩ := exec_command (s.nextCycle rest) (op_instr op)
        rw [hx] at h
        cases h
        exact .inl ⟨rest, op, u, e, he, rfl, rfl, hu, rfl⟩
  cases hev : s.events with
  | nil => exact .inr (.inr ((engine [] (.inr ⟨hev, rfl⟩)).imp_right Or.inl))
  | cons ev rest =>
    cases ev with
    | engine => exact .inr (.inr ((engine rest (.inl hev)).imp_right Or.inl))
    | rstAssert => simp only [step, turnOf, hev] at h; cases h; exact .inr (.inr (.inr (.inr (.inl ⟨rest, rfl, rfl⟩))))
    | rstRelease =>
      simp only [step, turnOf, hev] at h; cases h; exact .inr (.inr (.inr (.inr (.inr ⟨rest, rfl, rfl⟩))))
    | txn r =>
      simp only [step, turnOf, hev, hostTurn] at h
      cases hd : decodeRecord r with
      | error e => simp only [hd] at h; cases h
      | ok i =>
        obtain ⟨ha, hi⟩ := decodeRecord_ok hd
        simp only [hd] at h
        obtain rfl | rfl := hi
        · simp only [exec, execRd, ha] at h
          cases h
          exact .inl ⟨r, rest, rfl, ha, hd, rfl⟩
        · simp only [exec, execWr, ha] at h
          cases h
          exact .inr (.inl ⟨r, rest, rfl, ha, hd, rfl⟩)

end Sys2Proof.Machine
end

