-- ==== Sys2Proof/Laws/Program.lean ====
section
/-! SUPPORT. What the host's moves do, once. -/

namespace Sys2Proof.Machine

variable {s : State} {r : DWord} {i : Instr}

@[simp] theorem Session.after_next (f : State → List HostItem) (t : State) :
    Session.after f (.next t) = .next { program := f t, machine := t } := rfl

/-- A record placed next is run next, and the inputs behind it stay. -/
theorem step_placeRecord (h : decodeRecord r = .ok i) :
    step (placeRecord r s) = exec i { s with rdata := none } := by
  simp [step, turnOf, placeRecord, hostTurn, h, State.setEvents, State.nextCycle]

/-- The record of a read decodes to that read. -/
theorem decodeRecord_asmRd {off : BitVec 8} (ha : aligned off = true) : decodeRecord (asmRd off) = .ok (.rd off) := by
  have h : ∀ o : BitVec 8, recordOff (asmRd o) = o ∧ recordRsvd (asmRd o) = 0 ∧ recordKind (asmRd o) = 1 := by
    decide +kernel
  obtain ⟨ho, hr, hk⟩ := h off
  simp [decodeRecord, ho, hr, hk, ha]

/-- A host move on a POLL, out of reset: one read, and the POLL again unless its condition holds. -/
theorem Session.hostMove_poll {off : BitVec 8} {mask value : Word} {rest : List HostItem} (ha : aligned off = true)
    (hr : s.rstN = true) :
    Session.hostMove { program := .poll off mask value :: rest, machine := s } =
      .next {
        program := (HostItem.poll off mask value).followedBy rest (some (busRead off { s with rdata := none }))
        machine := { s with rdata := some (busRead off { s with rdata := none }) } } := by
  have hx : exec (.rd off) { s with rdata := none } =
      .next { s with rdata := some (busRead off { s with rdata := none }) } := exec_rd ha hr
  simp only [Session.hostMove, HostItem.record, step_placeRecord (decodeRecord_asmRd ha), hx, Session.after_next]

end Sys2Proof.Machine
end

