-- ==== Sys2Proof/Tests/Slice0.lean ====
section
/-! SUPPORT. The model's own tests: ill-formed terms, words written out from the spec's encodings, one step of each
instruction against the vectors of 95_test_vectors.md, and a witness for the hypotheses of each statement. -/

namespace Sys2Proof.Tests

-- One theorem at a time: each check by the kernel waits for the one before it.
set_option Elab.async false

open Sys2Proof.Machine

/-! ### Small states -/

/-- A buffer of `n` bytes that begins with the given ones. -/
def bufferOf (n : Nat) (bytes : List Byte) : Vector Byte n := Vector.ofFn fun i => bytes.getD i 0

/-- Reset, then a key and a challenge loaded, and their lengths. -/
def loaded (key : String) (keylen : BitVec 7) (chal : String) (challen : BitVec 6) : State :=
  { State.reset with
    keylen := keylen, key := bufferOf 64 (asciiBytes key), challen := challen, chal := bufferOf 32 (asciiBytes chal) }

/-- The state of the source's known vector V-K-1. -/
def known : State := loaded "ABCDEFGHIJ" 10 "000000" 6

/-- The same state with CTRL written as a word. -/
def withCtrl (c : Word) (s : State) : State := { s with ctrl := ctrlOfWord c }

/-- The same state with a command busy, as acceptance leaves it. -/
def busyWith (d : Word) (s : State) : State := accept d s

/-- The same state with these inputs to come. -/
def facing (evs : List Event) (s : State) : State := { s with events := evs }

/-- The outcome is a next state with the property. -/
def answers (r : Result) (p : State → Bool) : Bool :=
  match r with
  | .next t => p t
  | .fault _ => false
  | .refused _ => false

/-- A next state with the property, from the check. -/
theorem next_of_answers {r : Result} {p : State → Bool} (h : answers r p = true) :
    ∃ t, r = .next t ∧ p t = true := by
  cases r with
  | next t => exact ⟨t, rfl, h⟩
  | fault f => cases h
  | refused f => cases h

/-- A command, from acceptance to completion. -/
def perform (d : Word) (s : State) : Result := exec (decodeCommand d) (accept d s)

/-- The lane-full strobes take the whole word. -/
theorem isStrobed_full (d : Word) : IsStrobed d d 0xF := by
  intro i hi
  have : i / 8 < 4 := by omega
  have hb : (0xF#4).getLsbD (i / 8) = true := by interval_cases i / 8 <;> rfl
  change d.getLsbD i = ((0xF#4).getLsbD (i / 8) && d.getLsbD i)
  rw [hb, Bool.true_and]

/-! ### WellFormed refuses -/

/-- A default-row word without a bit of 31:4 (30_encoding.md R93). -/
theorem test_wellFormed_refuses_illegalWord_without_high_bit : (Instr.illegalWord 0x1 0).wellFormed = false := by
  decide

/-- An offset with bits 1:0 not zero (30_encoding.md R95). -/
theorem test_wellFormed_refuses_misaligned_rd : (Instr.rd 0x11).wellFormed = false := by decide

theorem test_wellFormed_refuses_misaligned_wr : (Instr.wr 0x0E 0x1 0xF).wellFormed = false := by decide

/-! ### Words written out field by field from R90, R91 and R95 -/

theorem test_decode_nop : decodeCommand (0x0000000#28 ++ 0b0000#4) = .nop := by decide
theorem test_decode_generate : decodeCommand (0x0000000#28 ++ 0b0001#4) = .generate := by decide
theorem test_decode_generateSeed : decodeCommand (0x0000000#28 ++ 0b0010#4) = .generateSeed := by decide
theorem test_decode_parse : decodeCommand (0x0000000#28 ++ 0b0011#4) = .parse := by decide
theorem test_decode_clear : decodeCommand (0x0000000#28 ++ 0b0100#4) = .clear := by decide
theorem test_decode_zeroize : decodeCommand (0x0000000#28 ++ 0b0101#4) = .zeroize := by decide
theorem test_decode_illegalLow : decodeCommand (0x0000000#28 ++ 0b0110#4) = .illegalLow 0 := by decide
theorem test_decode_illegalHigh : decodeCommand (0x0000000#28 ++ 0b1101#4) = .illegalHigh 5 := by decide
theorem test_decode_illegalWord : decodeCommand (0x8000000#28 ++ 0b0100#4) = .illegalWord 4 0x8000000 := by decide

/-- RSVD, KIND, BE, OFF, DATA. -/
theorem test_decode_rd : decodeRecord (0x0000#16 ++ 0b0001#4 ++ 0b1111#4 ++ 0b00010000#8 ++ 0x00000000#32) =
    .ok (.rd 0x10) := by rfl
theorem test_decode_wr : decodeRecord (0x0000#16 ++ 0b0010#4 ++ 0b0101#4 ++ 0b10011100#8 ++ 0xA1B2C3D4#32) =
    .ok (.wr 0x9C 0xA1B2C3D4 0x5) := by rfl
theorem test_decode_refuses_kind : decodeRecord (0x0000#16 ++ 0b0011#4 ++ 0b1111#4 ++ 0x10#8 ++ 0x00000000#32) =
    .error .invalidKind := by rfl
theorem test_decode_refuses_reserved : decodeRecord (0x8000#16 ++ 0b0001#4 ++ 0b1111#4 ++ 0x10#8 ++ 0x00000000#32) =
    .error .reservedBits := by rfl
theorem test_decode_refuses_misaligned : decodeRecord (0x0000#16 ++ 0b0010#4 ++ 0b1111#4 ++ 0x12#8 ++ 0x00000000#32) =
    .error .misalignedOffset := by rfl

/-- The records R95 gives as examples. -/
theorem test_encode_wr : encode (.wr 0x0C 0x1 0xF) = .record 0x00002F0C00000001 := by decide
theorem test_encode_rd : encode (.rd 0x10) = .record 0x00001F1000000000 := by decide
theorem test_encode_illegalWord : encode (.illegalWord 0x1 0x1) = .command 0x00000011 := by decide

/-- Program P1's LOADKEY, and P7's strobed write (95_test_vectors.md section 14). -/
theorem test_asm_loadKey : asmLoadKey (asciiBytes "ABCDEFGHIJ") =
    [0x00002F140000000A, 0x00002F4044434241, 0x00002F4448474645, 0x00002F4800004A49] := by decide +kernel
theorem test_asm_wr_be : asmWrBe 0x80 0x00003500 0x2 = 0x0000228000003500 := by decide

/-- The last word of `LOADCHAL "abc"` in program P3 has 0x00 in the lane past the string's end. -/
theorem test_asm_loadChal : asmLoadChal (asciiBytes "abc") = [0x00002F1800000003, 0x00002F8000636261] := by
  decide +kernel

/-- WAITDONE is one read of STATUS with a repeat mark (R97, P1 row 9). -/
theorem test_asm_waitDone : encodeProgram asmWaitDone = [(0x00001F1000000000, true)] := by decide

/-- P1 row 9: WAITDONE reads BUSY and stays, the engine completes, WAITDONE reads DONE and is left. -/
theorem test_waitDone_repeats_while_busy :
    Session.hostMove { program := asmWaitDone, machine := accept 0x0 State.reset } =
      .next { program := asmWaitDone, machine := { accept 0x0 State.reset with rdata := some 0x00000001 } } := by rfl
theorem test_waitDone_ends_when_done :
    Session.hostMove { program := asmWaitDone, machine := { State.reset with status := ⟨true, false, 0, 1⟩ } } =
      .next {
        program := []
        machine := { State.reset with status := ⟨true, false, 0, 1⟩, rdata := some 0x00001002 } } := by rfl

/-! ### A row's instruction, placed and stepped to -/

/-- V-CMD-1, V-CMD-29 to V-CMD-32, from reset. -/
theorem test_step_placed_nop :
    answers (step (State.reset.withFetchWord 32 0x0)) (fun t => statusWord t == 0x00000002) = true := by decide
theorem test_step_placed_illegalLow :
    answers (step (State.reset.withFetchWord 32 0x7)) (fun t => statusWord t == 0x00007506) = true := by decide
theorem test_step_placed_illegalHigh :
    answers (step (State.reset.withFetchWord 32 0xF)) (fun t => statusWord t == 0x0000F506) = true := by decide
theorem test_step_placed_illegalWord :
    answers (step (State.reset.withFetchWord 32 0x11)) (fun t => statusWord t == 0x00001506) = true := by decide
theorem test_step_placed_rd :
    step (State.reset.withFetchWord 64 0x00001F0000000000) = .next { State.reset with rdata := some 0x484D4143 } := by
  rfl
theorem test_step_placed_wr :
    answers (step (State.reset.withFetchWord 64 0x00002F0C00000001)) (fun t => statusWord t == 0x00001001) = true := by
  decide

/-- With nothing to do, reset stays as it is. -/
theorem test_step_idle : step State.reset = .next State.reset := by rfl

/-! ### Commands (95_test_vectors.md sections 4, 9 and 10) -/

/-- V-CMD-2: the known vector. -/
theorem test_generate_known : answers (perform 0x1 known) (fun t =>
    statusWord t == 0x00001002 && t.seed == 0 && t.code == 864153 && busRead 0x2C t == 0x31343638 &&
      busRead 0x30 t == 0x00003335) = true := by decide +kernel

/-- V-ERR-5: the parse writes SEED, then the key error. -/
theorem test_generate_key_error : answers (perform 0x1 (loaded "" 0 "5" 1)) (fun t =>
    statusWord t == 0x00001206 && t.seed == 5) = true := by decide +kernel

/-- V-CMD-23: SEED -1, as the register's pattern. -/
theorem test_generateSeed_minus_one :
    answers (perform 0x2 { known with seed := 0xFFFFFFFFFFFFFFFF }) (fun t =>
      statusWord t == 0x00002002 && t.code == 719172 && t.seed == 0xFFFFFFFFFFFFFFFF) = true := by decide +kernel

/-- V-ERR-8: the key policy before the key error. -/
theorem test_generateSeed_policy : answers (perform 0x2 (withCtrl 0x00060A02 State.reset)) (fun t =>
    statusWord t == 0x00002606) = true := by decide +kernel

/-- V-PAR-11: the smallest seed. -/
theorem test_parse_minimum : answers (perform 0x3 (loaded "" 0 "-9223372036854775808" 20)) (fun t =>
    statusWord t == 0x00003002 && t.seed == 0x8000000000000000) = true := by decide +kernel

/-- V-PAR-17: an accumulator that wraps would accept this. -/
theorem test_parse_no_wrap :
    answers (perform 0x3 { loaded "" 0 "18446744073709551617" 20 with seed := 7 }) (fun t =>
      statusWord t == 0x00003106 && t.seed == 7) = true := by decide +kernel

/-- V-CMD-26: CLEAR clears the outputs and keeps SEED. -/
theorem test_clear : answers (perform 0x4 { known with code := 42, codestr := formatCode 42, seed := 5 }) (fun t =>
    statusWord t == 0x00004002 && t.code == 0 && busRead 0x2C t == 0 && t.seed == 5) = true := by decide +kernel

/-- V-CMD-27: ZEROIZE erases; CTRL and OVR stay. -/
theorem test_zeroize : answers (perform 0x5 (withCtrl 0x00060A07 { known with status := ⟨false, true, 0, 0⟩ })) (fun t =>
    statusWord t == 0x0000500A && t.key == Vector.replicate 64 0 && t.challen == 0 && ctrlWord t.ctrl == 0x00060A07) =
      true := by decide +kernel

/-- V-CMD-33: ILLEGAL keeps the outputs. -/
theorem test_illegal_keeps_outputs : answers (perform 0x7 { known with code := 864153, codestr := formatCode 864153 })
    (fun t => statusWord t == 0x00007506 && t.code == 864153 && busRead 0x2C t == 0x31343638) = true := by
  decide +kernel

/-! ### The pipeline (95_test_vectors.md sections 2, 5, 6, 7 and 8) -/

/-- V-SHA-1. -/
theorem test_sha1_abc : sha1 (asciiBytes "abc") =
    [0xa9, 0x99, 0x3e, 0x36, 0x47, 0x06, 0x81, 0x6a, 0xba, 0x3e, 0x25, 0x71, 0x78, 0x50, 0xc2, 0x6c, 0x9c, 0xd0, 0xd8,
      0x9d] := by decide +kernel

/-- V-SHA-5: the shortest message of two blocks. -/
theorem test_sha1_two_blocks : sha1 (List.replicate 56 0x61) =
    beBytes4 0xc2db330f ++ beBytes4 0x6083854c ++ beBytes4 0x99d4b5bf ++ beBytes4 0xb6e8f29f ++ beBytes4 0x201be699 := by
  decide +kernel

/-- V-HM-1. -/
theorem test_hmac_known : hmacSha1 (asciiBytes "ABCDEFGHIJ") (List.replicate 8 0) =
    beBytes4 0x71deb69b ++ beBytes4 0x10f584e0 ++ beBytes4 0xc38f710f ++ beBytes4 0xdd319492 ++ beBytes4 0x8769199f := by
  decide +kernel

/-- V-RFC-1: RFC 4226's value for counter 1. -/
theorem test_code_rfc4226 : codeFromSeed (asciiBytes "12345678901234567890") 1 = 287082 := by decide +kernel

/-- V-CTR-5 and V-CTR-8. -/
theorem test_counterFrame : counterFrame 0xFFFFFFFFFFFFFFFF = [0, 0, 0, 0, 0xFF, 0xFF, 0xFF, 0xFF] ∧
    counterFrame 0x0000000100000001 = [0, 0, 0, 0, 0, 0, 0, 1] := by decide

/-- V-TR-1: offset 15, the window's top bit cleared. -/
theorem test_truncate_largest_offset :
    truncate (List.replicate 15 0 ++ [0x92, 0x87, 0x69, 0x19, 0x9F]) = 864153 := by decide

/-- V-FMT-4. -/
theorem test_format : formatCode 3466 = #v[0x30, 0x30, 0x33, 0x34, 0x36, 0x36] := by decide

/-! ### Bus transactions (95_test_vectors.md sections 11, 12 and 10) -/

/-- V-BUS-4: the reserved bits of CTRL are dropped. -/
theorem test_wr_ctrl_all_ones : answers (exec (.wr 0x08 0xFFFFFFFF 0xF) State.reset) (fun t =>
    busRead 0x08 t == 0x003F7F07) = true := by decide

/-- V-BUS-10: one lane of CHAL0. -/
theorem test_wr_chal_one_lane :
    answers (exec (.wr 0x80 0x00003500 0x2) { State.reset with chal := bufferOf 32 [0x31, 0x31, 0x31, 0x31] }) (fun t =>
      busRead 0x80 t == 0x31313531) = true := by decide +kernel

/-- V-BUS-17: the unstrobed lanes are zero, the strobed lane 1 makes the word illegal. -/
theorem test_wr_cmd_lanes : answers (exec (.wr 0x0C 0xFFFFFF01 0x3) State.reset) (fun t =>
    t.pend == some .illegal && statusWord t == 0x00001001) = true := by decide

/-- V-BUS-20: W1C of DONE alone. -/
theorem test_wr_status_w1c : answers (exec (.wr 0x10 0x02 0xF) { State.reset with status := ⟨true, true, 0, 0⟩ })
    (fun t => statusWord t == 0x00000008) = true := by decide

/-- V-HAZ-9: IE is taken while busy, the policy is not. -/
theorem test_wr_ctrl_busy : answers (exec (.wr 0x08 0x00060A03 0xF) (busyWith 0x1 known)) (fun t =>
    statusWord t == 0x00001009 && ctrlWord t.ctrl == 0x00060A01) = true := by decide +kernel

/-- V-HAZ-8. -/
theorem test_wr_ctrl_busy_policy : answers (exec (.wr 0x08 0x00070A00 0xF) (busyWith 0x1 known)) (fun t =>
    statusWord t == 0x00001009 && ctrlWord t.ctrl == 0x00060A00) = true := by decide +kernel

/-- V-BUS-11: KEY reads 0. -/
theorem test_rd_key : answers (exec (.rd 0x40) known) (fun t => t.rdata == some 0) = true := by decide +kernel

/-- CHAL1 of the known vector (P1, row 7). -/
theorem test_rd_chal : answers (exec (.rd 0x84) known) (fun t => t.rdata == some 0x00003030) = true := by
  decide +kernel

/-- V-RST-2: a command in flight is abandoned. -/
theorem test_reset_abandons : answers (step (facing [.rstAssert] (busyWith 0x1 known))) (fun t =>
    statusWord t == 0 && t.pend == none && t.keylen == 0 && t.rstN == false) = true := by decide +kernel

/-- V-IRQ-2: a completion raises irq. -/
theorem test_irq_completion : answers (perform 0x0 (withCtrl 0x00060A01 State.reset)) (fun t => t.irq) = true := by
  decide

/-! ### Witnesses: a state and operands that meet the hypotheses of each statement, clause by clause -/

/-- DecodeOfEncodeIsTheInstruction, WellFormedInstructionAnswersANextState: operands at their ends. -/
theorem witness_wellFormed : (Instr.illegalLow 1).wellFormed = true ∧ (Instr.illegalHigh 7).wellFormed = true ∧
    (Instr.illegalWord 0xF 0xFFFFFFF).wellFormed = true ∧ (Instr.illegalWord 0x0 0x0000001).wellFormed = true ∧
    (Instr.rd 0x00).wellFormed = true ∧ (Instr.rd 0xFC).wellFormed = true ∧
    (Instr.wr 0xFC 0xFFFFFFFF 0xF).wellFormed = true := by decide

/-- CommandWordDecodesToOneOperation, CommandWriteIsAcceptedWhenIdleAndDroppedWhileBusy: an idle state, a strobed lane 0, every clause's
word, and V-BUS-16's word under its strobe. -/
theorem witness_command_write : State.reset.rstN = true ∧ State.reset.pend = none ∧ (0xF#4).getLsbD 0 = true ∧
    (∀ d : Word, IsStrobed d d 0xF) ∧ IsStrobed 0x00000001 0xFFFFFF01 0x1 ∧
    16 ≤ (0x00000010#32).toNat ∧ 6 ≤ (0x00000006#32).toNat ∧ (0x0000000F#32).toNat ≤ 15 :=
  ⟨rfl, rfl, rfl, isStrobed_full, by unfold IsStrobed; decide, by decide, by decide, by decide⟩

/-- RecordIsATransactionExactlyWhenItsFieldsAreValid: a record for each clause. -/
theorem witness_records :
    (0x0001200000000000#64).toNat / 2 ^ 48 ≠ 0 ∧
    ((0x00000F0000000000#64).toNat / 2 ^ 44 % 16 ≠ 1 ∧ (0x00003F0000000000#64).toNat / 2 ^ 44 % 16 ≠ 2) ∧
    (0x00001F0100000000#64).toNat / 2 ^ 32 % 4 ≠ 0 ∧
    ((0x00001FFC00000000#64).toNat / 2 ^ 48 = 0 ∧ (0x00001FFC00000000#64).toNat / 2 ^ 32 % 4 = 0 ∧
      (0x00001FFC00000000#64).toNat / 2 ^ 44 % 16 = 1) ∧
    ((0x00002FFCFFFFFFFF#64).toNat / 2 ^ 48 = 0 ∧ (0x00002FFCFFFFFFFF#64).toNat / 2 ^ 32 % 4 = 0 ∧
      (0x00002FFCFFFFFFFF#64).toNat / 2 ^ 44 % 16 = 2) := by decide

/-- HostStepRunsItsTransaction: a transaction, and a record that is none. -/
theorem witness_host_step : (facing [.txn 0x00002F0C00000001, .engine] State.reset).events =
      .txn 0x00002F0C00000001 :: [.engine] ∧
    decodeRecord 0x00002F0C00000001 = .ok (.wr 0x0C 0x1 0xF) ∧
    (facing [.txn 0x0001200000000000] State.reset).events = .txn 0x0001200000000000 :: [] ∧
    decodeRecord 0x0001200000000000 = .error .reservedBits := ⟨rfl, rfl, rfl, rfl⟩

/-- EngineStepCompletesThePendingCommand: both inputs, a busy engine, an idle one, and reset low. -/
theorem witness_engine_step : (facing [.engine] (busyWith 0x1 known)).events = .engine :: [] ∧
    (busyWith 0x1 known).events = [] ∧ (busyWith 0x1 known).rstN = true ∧
    (busyWith 0x1 known).pend = some .generate ∧ Instr.op .generate = some .generate ∧
    (busyWith 0xF known).pend = some .illegal ∧ Instr.op (.illegalHigh 7) = some .illegal ∧
    known.pend = none ∧ (known.setRstN false).rstN = false := by decide +kernel

/-- ResetSetsTheResetRecordFromAnyState. -/
theorem witness_reset : (facing [.rstAssert, .rstRelease] (busyWith 0x1 known)).events =
      .rstAssert :: .rstRelease :: [] ∧
    (known.setRstN false).rstN = false ∧ aligned 0x40 = true := by decide +kernel

/-- ReadAnswersTheRegisterAndChangesNothing, KeyCannotBeReadBack: the offsets of each clause, the ends of the ranges
among them. -/
theorem witness_read : known.rstN = true ∧
    ([0x00, 0x04, 0x08, 0x0C, 0x10, 0x14, 0x18, 0x1C, 0x20, 0x24, 0x28, 0x2C, 0x30, 0x34, 0x3C, 0x40, 0x7C, 0x80, 0x9C,
      0xA0, 0xFC].all fun off => aligned off) = true ∧
    0x40 ≤ (0x40#8).toNat ∧ (0x7C#8).toNat ≤ 0x7C := by decide +kernel

/-- MisalignedTransactionIsRefused. -/
theorem witness_misaligned : (0x01#8).toNat % 4 ≠ 0 ∧ (0x42#8).toNat % 4 ≠ 0 ∧ (0xFF#8).toNat % 4 ≠ 0 := by decide

/-- CtrlAndStatusReadTheirFieldsInTheirBits, BufferBytesReadInTheirLanes: out of reset. -/
theorem witness_out_of_reset : known.rstN = true ∧ (0 : Nat) < 32 ∧ (31 : Nat) < 32 ∧ (5 : Nat) < 6 := by
  decide +kernel

/-- The statements about writes while idle. -/
theorem witness_idle : known.rstN = true ∧ known.pend = none ∧ (15 : Nat) < 16 ∧ (7 : Nat) < 8 := by decide +kernel

/-- The statements about writes while busy: CTRL, CMD with and without lane 0, the inputs at the ends of their
ranges. -/
theorem witness_busy : (busyWith 0x1 known).rstN = true ∧ (busyWith 0x1 known).pend ≠ none ∧
    (0xF#4).getLsbD 0 = true ∧ (0xE#4).getLsbD 0 = false ∧ (0x8#4) ≠ 0 ∧
    ([0x14, 0x18, 0x20, 0x24, 0x40, 0x7C, 0x80, 0x9C].all fun off => aligned off) = true ∧
    0x40 ≤ (0x40#8).toNat ∧ (0x7C#8).toNat ≤ 0x7C ∧ 0x80 ≤ (0x80#8).toNat ∧ (0x9C#8).toNat ≤ 0x9C := by decide +kernel

/-- IgnoredWriteHasNoEffect: each offset, and the ends of the last range. -/
theorem witness_ignored :
    ([0x00, 0x04, 0x1C, 0x28, 0x2C, 0x30, 0x34, 0x38, 0x3C, 0xA0, 0xFC].all fun off => aligned off) = true ∧
    0xA0 ≤ (0xA0#8).toNat ∧ 0xA0 ≤ (0xFC#8).toNat := by decide

/-- WriteCompletesAndKeepsItsFrame: an aligned offset, and for the byte clauses a byte outside the write. -/
theorem witness_write_frame : aligned 0x40 = true ∧ (0x40#8) ≠ 0x08 ∧ (0x40#8) ≠ 0x0C ∧ (0x40#8) ≠ 0x10 ∧
    known.pend = none ∧ ¬((0x40#8).toNat = 0x40 + 4 * (63 / 4) ∧ (0xF#4).getLsbD (63 % 4) = true) ∧
    ¬((0x40#8).toNat = 0x40 + 4 * (0 / 4) ∧ (0xE#4).getLsbD (0 % 4) = true) := by decide +kernel

/-- IllegalWordFromWriteToCompletion: the least illegal word, and one with bits 31:4 set. -/
theorem witness_illegal : State.reset.rstN = true ∧ State.reset.pend = none ∧ (0xF#4).getLsbD 0 = true ∧
    IsStrobed 0x00000006 0x00000006 0xF ∧ 6 ≤ (0x00000006#32).toNat ∧ IsStrobed 0x0000FF01 0xFFFFFF01 0x3 ∧
    6 ≤ (0x0000FF01#32).toNat ∧ Instr.op (.illegalWord 1 1) = some .illegal :=
  ⟨rfl, rfl, by decide, isStrobed_full _, by decide, by unfold IsStrobed; decide, by decide, rfl⟩

/-- ParseStoresTheSeedOrReportsItsError: each clause. -/
theorem witness_parse :
    ((withCtrl 0x00060A04 (loaded "" 0 "-1" 2)).ctrl.clenChk = true ∧
      (withCtrl 0x00060A04 (loaded "" 0 "-1" 2)).challen ≠ (withCtrl 0x00060A04 (loaded "" 0 "-1" 2)).ctrl.clenReq) ∧
    (known.ctrl.clenChk = false ∧ (withCtrl 0x00060A04 known).challen = (withCtrl 0x00060A04 known).ctrl.clenReq) ∧
    parseChallenge ((loaded "" 0 "" 33).chal.toList.take (min (loaded "" 0 "" 33).challen.toNat 32))
      (loaded "" 0 "" 33).challen.toNat = none ∧
    parseChallenge (known.chal.toList.take (min known.challen.toNat 32)) known.challen.toNat = some 0 := by
  decide +kernel

/-- GenerateSeedWritesTheCodeOrReportsItsError, GenerateWritesSeedAndCodeOrReportsItsFirstError: the key clauses, at
the ends of the usable lengths. -/
theorem witness_key :
    ((withCtrl 0x00060A02 State.reset).ctrl.klenChk = true ∧
      (withCtrl 0x00060A02 State.reset).keylen ≠ (withCtrl 0x00060A02 State.reset).ctrl.klenReq) ∧
    (known.ctrl.klenChk = false ∧ (withCtrl 0x00060A02 known).keylen = (withCtrl 0x00060A02 known).ctrl.klenReq) ∧
    (loaded "" 0 "5" 1).keylen.toNat = 0 ∧ 64 < (loaded "" 65 "5" 1).keylen.toNat ∧
    1 ≤ (loaded "A" 1 "5" 1).keylen.toNat ∧ (loaded "A" 64 "5" 1).keylen.toNat ≤ 64 := by decide +kernel

/-- EveryCommandCompletes, CommandKeepsItsFrame, the completion clause of IrqIsRaisedByCompletionWhenEnabled: a command
that succeeds and one that fails. -/
theorem witness_completion : Instr.op .parse = some .parse ∧
    answers (exec .parse (busyWith 0x3 known)) (fun t => t.status.errcode == 0) = true ∧
    answers (exec .parse (busyWith 0x3 State.reset)) (fun t => t.status.errcode != 0) = true := by decide +kernel

/-- FailedGenerateLeavesNoCode: both commands, with no key. -/
theorem witness_failed_generate :
    (∃ t u, exec (.wr 0x0C 0x1 0xF) State.reset = .next t ∧ exec .generate t = .next u ∧ u.status.errcode ≠ 0) ∧
    (∃ t u, exec (.wr 0x0C 0x2 0xF) State.reset = .next t ∧ exec .generateSeed t = .next u ∧
      u.status.errcode ≠ 0) := by
  have h1 : answers (exec .generate (accept 0x1 State.reset)) (fun u => u.status.errcode != 0) = true := by decide +kernel
  have h2 : answers (exec .generateSeed (accept 0x2 State.reset)) (fun u => u.status.errcode != 0) = true := by
    decide +kernel
  obtain ⟨u, hu, eu⟩ := next_of_answers h1
  obtain ⟨w, hw, ew⟩ := next_of_answers h2
  exact ⟨⟨_, u, rfl, hu, by simpa using eu⟩, ⟨_, w, rfl, hw, by simpa using ew⟩⟩

/-- ParseReadsSignedDecimals: texts at both ends of the length, and the rejected lengths. -/
theorem witness_parse_text : 1 ≤ (asciiBytes "7").length ∧
    (asciiBytes "00000000000000000000000000000042").length ≤ 32 ∧ ReadsAs (asciiBytes "-1") (-1) ∧ (32 : Nat) < 33 :=
  ⟨by decide, by decide, ⟨asciiBytes "1", by decide, by decide, .inr (by decide)⟩, by decide⟩

/-- SeedsEqualModulo32BitsGiveTheSameCode: V-CMD-24 beside V-CMD-25. -/
theorem witness_seeds : (0x0000000100000000#64).toNat % 2 ^ 32 = known.seed.toNat % 2 ^ 32 ∧
    (∃ t, exec .generateSeed known = .next t) ∧
    ∃ u, exec .generateSeed { known with seed := 0x0000000100000000 } = .next u := by
  refine ⟨by decide +kernel, ?_, ?_⟩
  · obtain ⟨u, e, h, -⟩ := exec_command known (i := .generateSeed) rfl
    exact ⟨_, h⟩
  · obtain ⟨u, e, h, -⟩ := exec_command { known with seed := 0x0000000100000000 } (i := .generateSeed) rfl
    exact ⟨_, h⟩

/-- GenerateIsParseThenGenerateSeed: the known vector succeeds in all three. -/
theorem witness_generate_parse : ∃ p g t, exec .parse known = .next p ∧ p.status.errcode = 0 ∧
    exec .generateSeed p = .next g ∧ g.status.errcode = 0 ∧ exec .generate known = .next t ∧ t.status.errcode = 0 := by
  have h1 : answers (exec .parse known) (fun p => p.status.errcode == 0 &&
      answers (exec .generateSeed p) fun g => g.status.errcode == 0) = true := by decide +kernel
  have h2 : answers (exec .generate known) (fun t => t.status.errcode == 0) = true := by decide +kernel
  obtain ⟨p, hp, ep⟩ := next_of_answers h1
  obtain ⟨t, ht, et⟩ := next_of_answers h2
  rw [Bool.and_eq_true] at ep
  obtain ⟨g, hg, eg⟩ := next_of_answers ep.2
  exact ⟨p, g, t, hp, by simpa using ep.1, hg, by simpa using eg, ht, by simpa using et⟩

/-- SuccessfulGenerateHasRangeAndShape: both commands. -/
theorem witness_success : (∃ t, exec .generate known = .next t ∧ t.status.errcode = 0) ∧
    ∃ t, exec .generateSeed known = .next t ∧ t.status.errcode = 0 := by
  have h1 : answers (exec .generate known) (fun t => t.status.errcode == 0) = true := by decide +kernel
  have h2 : answers (exec .generateSeed known) (fun t => t.status.errcode == 0) = true := by decide +kernel
  obtain ⟨t, ht, et⟩ := next_of_answers h1
  obtain ⟨u, hu, eu⟩ := next_of_answers h2
  exact ⟨⟨t, ht, by simpa using et⟩, ⟨u, hu, by simpa using eu⟩⟩

/-- TrailingZeroKeyBytesDoNotMatter, TruncationFollowsItsArithmetic, FormatWritesSixDecimalDigits,
HmacInputsPadToTwoBlocksEach: at the ends of their ranges. -/
theorem witness_pipeline : (asciiBytes "A").length + 63 ≤ 64 ∧ (sha1 []).length = 20 ∧ (999999#20).toNat ≤ 999999 ∧
    1 ≤ (List.replicate 1 (0x41 : Byte)).length ∧ (List.replicate 64 (0x41 : Byte)).length ≤ 64 :=
  ⟨by decide, rfl, by decide, by decide, by decide⟩

/-- The known vector beside one that differs in bytes no command reads, in the outputs and in STATUS. -/
def otherKnown : State := { known with key := known.key.set 10 0x7F, chal := known.chal.set 6 0x7F, code := 42 }

/-- CommandsDependOnTheirOperandsOnly: states that differ, and agree on the operands of every command. -/
theorem witness_operands : known.sameKeyOperands otherKnown ∧ known.sameChallengeOperands otherKnown ∧
    known.seed = otherKnown.seed ∧ known.key ≠ otherKnown.key ∧ known.chal ≠ otherKnown.chal := by
  refine ⟨⟨rfl, rfl, rfl, ?_⟩, ⟨rfl, rfl, rfl, ?_⟩, rfl, ?_, ?_⟩ <;> decide +kernel

/-- EveryStepKeepsTheInvariant: a state other than reset that meets the invariant, a command busy in it, and a step from
it. -/
theorem witness_invariant : (busyWith 0x3 known).Inv ∧ ∃ t, step (busyWith 0x3 known) = .next t := by
  constructor
  · constructor
    · decide +kernel
    · exact .inl rfl
    · exact .inl ⟨rfl, rfl⟩
    · intro _; exact ⟨rfl, rfl⟩
    · intro op c hp hc
      cases hp
      cases hc
      rfl
    · intro hd; cases hd
    · intro hr; cases hr
  · have h : answers (step (busyWith 0x3 known)) (fun _ => true) = true := by decide +kernel
    obtain ⟨t, ht, -⟩ := next_of_answers h
    exact ⟨t, ht⟩

/-- InputsStandStillWhileBusy: a dropped write to KEYLEN, V-HAZ-2. -/
theorem witness_inputs_still : (busyWith 0x1 known).pend ≠ none ∧
    ∃ t, step (facing [.txn 0x00002F1400000005] (busyWith 0x1 known)) = .next t ∧ t.pend ≠ none := by
  refine ⟨by decide +kernel, ?_⟩
  have h : answers (step (facing [.txn 0x00002F1400000005] (busyWith 0x1 known))) (fun t => t.pend != none) = true := by
    decide +kernel
  obtain ⟨t, ht, et⟩ := next_of_answers h
  exact ⟨t, ht, by simpa using et⟩

/-- OVR set, nothing else. -/
def overrun : State := { State.reset with status := ⟨true, true, 0, 0⟩ }

/-- OvrChangesOnlyAsTheFlagTableSays, DoneChangesOnlyAsTheFlagTableSays: a step for each way a flag changes, OVR set by
a dropped CMD write, input write and policy change. -/
theorem witness_flags :
    answers (step (facing [.rstAssert] overrun)) (fun t => !t.status.ovr && !t.status.done) = true ∧
    answers (step (facing [.txn 0x00002F1000000008] overrun)) (fun t => !t.status.ovr) = true ∧
    answers (step (facing [.txn 0x00002F1000000002] overrun)) (fun t => !t.status.done) = true ∧
    answers (step (facing [.txn 0x00002F0C00000000] overrun)) (fun t => !t.status.done) = true ∧
    answers (step (facing [.txn 0x00002F0C00000000] (busyWith 0x1 known))) (fun t => t.status.ovr) = true ∧
    answers (step (facing [.txn 0x00002F1400000005] (busyWith 0x1 known))) (fun t => t.status.ovr) = true ∧
    answers (step (facing [.txn 0x00002F0800070A00] (busyWith 0x1 known))) (fun t => t.status.ovr) = true ∧
    answers (step (busyWith 0x0 known)) (fun t => t.status.done) = true := by decide +kernel

/-- KeyChangesOnlyByWriteZeroizeOrReset: a step for each way the key changes. -/
theorem witness_key_changes :
    answers (step (facing [.rstAssert] known)) (fun t => t.key != known.key) = true ∧
    answers (step (busyWith 0x5 known)) (fun t => t.key != known.key) = true ∧
    answers (step (facing [.txn 0x0000287CFF000000] known)) (fun t => t.key != known.key) = true := by decide +kernel

/-- IrqIsRaisedByCompletionWhenEnabled, the acceptance clause: V-IRQ-6. -/
theorem witness_irq_acceptance : (withCtrl 0x00060A01 overrun).irq = true ∧ (withCtrl 0x00060A01 overrun).rstN = true ∧
    (withCtrl 0x00060A01 overrun).pend = none ∧
    answers (exec (.wr 0x0C 0x1 0xF) (withCtrl 0x00060A01 overrun)) (fun t => t.status.lastop == 1) = true := by
  decide +kernel

/-- EveryRunOfPresentableInputsEnds: inputs with a command, a reset and a read among them. -/
theorem witness_run :
    (facing [.txn 0x00002F0C00000001, .rstAssert, .rstRelease, .txn 0x00001F1000000000] known).inputsPresentable ∧
    (facing [.txn 0x00002F0C00000001, .rstAssert, .rstRelease, .txn 0x00001F1000000000] known).rstN = true ∧
    (known.setRstN false).rstN = false ∧ (known.setRstN false).pend = none := by
  refine ⟨?_, rfl, rfl, rfl⟩
  intro r hr
  simp only [facing, List.mem_cons, Event.txn.injEq, reduceCtorEq, List.not_mem_nil, or_false, false_or] at hr
  obtain rfl | rfl := hr
  · exact ⟨_, rfl⟩
  · exact ⟨_, rfl⟩

/-- PollRepeatsItsReadUntilItsConditionHolds: out of reset, a condition that does not hold and one that does, a WAITDONE
while busy and one when done. -/
theorem witness_poll : State.reset.rstN = true ∧ aligned 0x10 = true ∧
    busRead 0x10 (accept 0x0 State.reset) &&& 0x3 ≠ 0x2 ∧
    busRead 0x10 { State.reset with status := ⟨true, false, 0, 1⟩ } &&& 0x3 = 0x2 := by decide

/-- Sha1ScheduleFollowsItsRecurrence, Sha1ChainsTheBlocksFromTheInitialHash: a message of two blocks, both block
numbers below the count. -/
theorem witness_blocks : (1 : Nat) < (sha1Pad (List.replicate 56 0x61)).length / 64 := by decide +kernel

end Sys2Proof.Tests
end

section
/-! SUPPORT for the reads. The offset of each register of the window: `regAt` is the inverse of `Reg.offset`
(10_state.md R22). The words of STATUS and CODESTR1 as the read's rule writes them. -/

namespace Sys2Proof.Machine

variable {off : BitVec 8} {r : Reg}

/-- The register at an aligned offset is reserved, or is the one that the offset names. -/
theorem regAt_reserved_or_offset (ha : aligned off = true) :
    regAt off = .reserved ∨ (regAt off).offset = some off := by
  revert off
  decide

/-- A register that is not reserved stands at its own offset and at no other. -/
theorem regAt_eq_iff (ha : aligned off = true) (hr : r ≠ .reserved) : regAt off = r ↔ r.offset = some off where
  mp h := by
    subst h
    exact (regAt_reserved_or_offset ha).resolve_left hr
  mpr h := (regAt_offset r off h).1

/-- Word `w` of KEY stands at 0x40 + 4w. -/
theorem regAt_eq_key_iff (ha : aligned off = true) (w : BitVec 4) :
    regAt off = .key w ↔ off.toNat = 0x40 + 4 * w.toNat := by
  rw [regAt_eq_iff ha (by simp), Reg.offset, Option.some_inj, ← BitVec.toNat_inj]
  have hw : (0b01#2 ++ w ++ 0b00#2).toNat = 0x40 + 4 * w.toNat := by revert w; decide
  rw [hw, eq_comm]

/-- Word `w` of CHAL stands at 0x80 + 4w. -/
theorem regAt_eq_chal_iff (ha : aligned off = true) (w : BitVec 3) :
    regAt off = .chal w ↔ off.toNat = 0x80 + 4 * w.toNat := by
  rw [regAt_eq_iff ha (by simp), Reg.offset, Option.some_inj, ← BitVec.toNat_inj]
  have hw : (0b100#3 ++ w ++ 0b00#2).toNat = 0x80 + 4 * w.toNat := by revert w; decide
  rw [hw, eq_comm]

/-- The reserved offsets: 0x1C, 0x34 to 0x3C, and 0xA0 to 0xFC. -/
theorem regAt_eq_reserved_iff (ha : aligned off = true) :
    regAt off = .reserved ↔
      off.toNat = 0x1C ∨ 0x34 ≤ off.toNat ∧ off.toNat ≤ 0x3C ∨ 0xA0 ≤ off.toNat := by
  revert off
  decide

/-- CODESTR1 holds the last two of the six bytes, its lanes 2 and 3 are 0 (10_state.md R36). -/
theorem readWord_codestr1 (str : Vector Byte 6) :
    readWord str 1 = (str.getD 5 0).setWidth 32 <<< 8 ||| (str.getD 4 0).setWidth 32 := by
  have past {i : Nat} (hi : 6 ≤ i) : str.getD i 0#8 = 0#8 := by
    simp [Vector.getD, Array.getD, hi]
  simp [readWord, lanes, past]

/-- BUSY as STATUS's rule writes it (10_state.md R38). -/
theorem State.busy_eq (s : State) : s.busy = (s.pend != none) := by
  cases h : s.pend <;> simp [State.busy, h]

end Sys2Proof.Machine
end

section
/-! PROOF. What a read answers (20_memory.md R64). -/

namespace Sys2Proof.Machine

/-- Settles O10: RD changes the read-data port only, and its word is found register by register, each one at the
offset that `regAt_eq_iff` gives it. For KEY, CHAL and the reserved offsets the offset's number rules out the clauses
above theirs; every other register has one offset, at which the case list computes. -/
theorem readAnswersTheRegisterAndChangesNothing : Obligations.ReadAnswersTheRegisterAndChangesNothing := by
  intro s off hrst ha
  rw [exec_rd ha hrst]
  refine congrArg (fun v => Host.Outcome.next (s.setRdata v)) ?_
  have hoff {r : Reg} (h : regAt off = r) (hr : r ≠ .reserved) : r.offset = some off := (regAt_eq_iff ha hr).1 h
  cases h : regAt off with
  | key w =>
    have hn := (regAt_eq_key_iff ha w).1 h
    have hw := w.isLt
    simp (disch := omega) only [busRead, h, if_neg, if_pos]
  | chal w =>
    have hn := (regAt_eq_chal_iff ha w).1 h
    have hw := w.isLt
    have hdiv : (off.toNat - 0x80) / 4 = w.toNat := by omega
    simp (disch := omega) only [busRead, h, hdiv, if_neg, if_pos]
    rfl
  | reserved =>
    have hn := (regAt_eq_reserved_iff ha).1 h
    simp (disch := omega) only [busRead, h, if_neg]
  | codestr1 =>
    cases hoff h (by decide)
    exact readWord_codestr1 s.codestr
  | status =>
    cases hoff h (by decide)
    change statusWord s = _
    rw [statusWord, State.busy_eq]
    rfl
  | _ =>
    cases hoff h (by decide)
    rfl

end Sys2Proof.Machine
end

section
/-! SUPPORT for the encoding. A write's `d` under its strobes (30_encoding.md R90), and the fields of a record as
numbers, with what the record decodes to (R95). -/

namespace Sys2Proof.Machine

variable {d data : Word} {be : BitVec 4} {off : BitVec 8} {s : State} {r : DWord}

/-! ### The word of a CMD write -/

/-- The strobed word, described bit by bit, is the data under the byte mask (20_memory.md R65). -/
theorem isStrobed_iff : IsStrobed d data be ↔ d = data &&& strobeMask be where
  mp h := by
    apply BitVec.eq_of_getLsbD_eq
    intro i hi
    rw [masked_getLsbD data be hi, h i hi, Bool.and_comm]
  mpr h i hi := by rw [h, masked_getLsbD data be hi, Bool.and_comm]

/-- An idle write to CMD with lane 0 strobed is accepted, with the data under its strobes as the command word. -/
theorem busWrite_cmd_idle (hreg : regAt off = .cmd) (hidle : s.pend = none) (h0 : be.getLsbD 0 = true) :
    busWrite off data be s = accept (data &&& strobeMask be) s := by
  have hbe : be ≠ 0 := by rintro rfl; cases h0
  have hbusy : s.busy = false := by rw [State.busy, hidle]; rfl
  simp only [busWrite, if_neg hbe, hreg, h0, hbusy, if_true, Bool.false_eq_true, if_false]

/-- LASTOP after acceptance is the command word modulo 16 (40_commands.md R110). -/
theorem accept_lastop_toNat : (accept d s).status.lastop.toNat = d.toNat % 16 := by
  rw [accept_status]
  exact (commandWord_toNat d).2

/-! ### The fields of a record as numbers -/

/-- Bits of a record, the shift written as a division. -/
theorem record_extractLsb'_eq_ofNat (r : DWord) (start len : Nat) :
    r.extractLsb' start len = BitVec.ofNat len (r.toNat / 2 ^ start) := by
  rw [BitVec.extractLsb', Nat.shiftRight_eq_div_pow]

theorem recordData_eq_ofNat (r : DWord) : recordData r = BitVec.ofNat 32 r.toNat := by
  rw [recordData, record_extractLsb'_eq_ofNat, pow_zero, Nat.div_one]

theorem recordOff_eq_ofNat (r : DWord) : recordOff r = BitVec.ofNat 8 (r.toNat / 2 ^ 32) :=
  record_extractLsb'_eq_ofNat r 32 8

theorem recordBe_eq_ofNat (r : DWord) : recordBe r = BitVec.ofNat 4 (r.toNat / 2 ^ 40) :=
  record_extractLsb'_eq_ofNat r 40 4

theorem recordKind_eq_iff (k : BitVec 4) : recordKind r = k ↔ r.toNat / 2 ^ 44 % 16 = k.toNat := by
  rw [← BitVec.toNat_inj, recordKind, record_extractLsb'_eq_ofNat, BitVec.toNat_ofNat]

theorem recordRsvd_eq_zero_iff : recordRsvd r = 0 ↔ r.toNat / 2 ^ 48 = 0 := by
  have hlt : r.toNat / 2 ^ 48 < 2 ^ 16 := by omega
  rw [← BitVec.toNat_inj, recordRsvd, record_extractLsb'_eq_ofNat, BitVec.toNat_ofNat, Nat.mod_eq_of_lt hlt]
  rfl

/-- An offset is aligned when it is a multiple of 4 (20_memory.md R62). -/
theorem aligned_iff : aligned off = true ↔ off.toNat % 4 = 0 := by
  revert off
  decide

theorem aligned_recordOff_iff : aligned (recordOff r) = true ↔ r.toNat / 2 ^ 32 % 4 = 0 := by
  rw [aligned_iff, recordOff_eq_ofNat, BitVec.toNat_ofNat]
  omega

/-! ### What a record decodes to -/

/-- Each of the three faults of a record makes the decoder refuse it. -/
theorem decodeRecord_error
    (h : recordRsvd r ≠ 0 ∨ (recordKind r ≠ 1 ∧ recordKind r ≠ 2) ∨ aligned (recordOff r) = false) :
    ∃ why, decodeRecord r = .error why := by
  unfold decodeRecord
  split
  · exact ⟨.reservedBits, rfl⟩
  next hrsvd =>
  split
  · exact ⟨.invalidKind, rfl⟩
  next hkind =>
  have ha := (h.resolve_left hrsvd).resolve_left hkind
  exact ⟨.misalignedOffset, if_pos ha⟩

theorem decodeRecord_rd (hrsvd : recordRsvd r = 0) (hkind : recordKind r = 1)
    (ha : aligned (recordOff r) = true) : decodeRecord r = .ok (.rd (recordOff r)) := by
  simp [decodeRecord, hrsvd, hkind, ha]

theorem decodeRecord_wr (hrsvd : recordRsvd r = 0) (hkind : recordKind r = 2)
    (ha : aligned (recordOff r) = true) :
    decodeRecord r = .ok (.wr (recordOff r) (recordData r) (recordBe r)) := by
  simp [decodeRecord, hrsvd, hkind, ha]

end Sys2Proof.Machine
end

section
/-! PROOF. The operation of a command word (30_encoding.md R90), and which records are transactions (R95). -/

namespace Sys2Proof.Machine

/-- Settles O3: the write is the acceptance of `d`, so PEND is `DecodeCmd` of `d`; each clause is that function on the
number of `d`. -/
theorem commandWordDecodesToOneOperation : Obligations.CommandWordDecodesToOneOperation := by
  intro s data d be hrst hidle h0 hd
  have hx : exec (.wr 0x0C data be) s = .next (accept d s) := by
    rw [exec_wr (by decide) hrst, busWrite_cmd_idle (by decide) hidle h0, ← isStrobed_iff.1 hd]
  refine ⟨accept d s, decodeOp d, hx, accept_pend d s, decodeCommand_op d, accept_lastop_toNat, ?_⟩
  rw [decodeOp_toNat]
  refine ⟨fun h => if_pos h, ?nop, ?generate, ?generateSeed, ?parse, ?clear, ?zeroize, ?reserved⟩
  case reserved =>
    rintro ⟨h6, h15⟩
    rw [if_neg (by omega)]
    generalize d.toNat = n at h6 h15
    interval_cases n <;> rfl
  all_goals
    intro h
    rw [h]
    rfl

/-- Settles O4: the fields of R95 as numbers are those the decoder reads, and the decoder has one law for the refusals
and one for each KIND. -/
theorem recordIsATransactionExactlyWhenItsFieldsAreValid :
    Obligations.RecordIsATransactionExactlyWhenItsFieldsAreValid := by
  refine ⟨fun r => ⟨fun h => decodeRecord_error ?_, fun hrsvd hoff hkind => ?_, fun hrsvd hoff hkind => ?_⟩,
    rfl, rfl⟩
  · refine h.imp (mt recordRsvd_eq_zero_iff.1) (Or.imp ?_ fun hoff => ?_)
    · exact And.imp (mt (recordKind_eq_iff 1).1) (mt (recordKind_eq_iff 2).1)
    · exact Bool.eq_false_iff.2 (mt aligned_recordOff_iff.1 hoff)
  · rw [← recordOff_eq_ofNat]
    exact decodeRecord_rd (recordRsvd_eq_zero_iff.2 hrsvd) ((recordKind_eq_iff 1).2 hkind)
      (aligned_recordOff_iff.2 hoff)
  · rw [← recordOff_eq_ofNat, ← recordData_eq_ofNat, ← recordBe_eq_ofNat]
    exact decodeRecord_wr (recordRsvd_eq_zero_iff.2 hrsvd) ((recordKind_eq_iff 2).2 hkind)
      (aligned_recordOff_iff.2 hoff)

end Sys2Proof.Machine
end

section
/-! SUPPORT for the commands. What a CMD write answers, idle and busy (40_commands.md R110, 70_reset_and_hazards.md
R262), and the words and the completion of ILLEGAL (40_commands.md R123). -/

namespace Sys2Proof.Machine

variable {d data : Word} {be : BitVec 4} {off : BitVec 8} {s : State}

/-! ### A CMD write -/

/-- Out of reset and idle, a CMD write with lane 0 strobed is the acceptance of its strobed word. -/
theorem exec_wr_cmd_idle (hrst : s.rstN = true) (hidle : s.pend = none) (h0 : be.getLsbD 0 = true)
    (hd : IsStrobed d data be) : exec (.wr 0x0C data be) s = .next (accept d s) := by
  rw [exec_wr (by decide) hrst, busWrite_cmd_idle (by decide) hidle h0, ← isStrobed_iff.1 hd]

/-- A busy write to CMD with lane 0 strobed is dropped. -/
theorem busWrite_cmd_busy (hreg : regAt off = .cmd) (hbusy : s.pend ≠ none) (h0 : be.getLsbD 0 = true) :
    busWrite off data be s = s.dropWrite := by
  have hbe : be ≠ 0 := by rintro rfl; cases h0
  have hb : s.busy = true := Option.isSome_iff_ne_none.2 hbusy
  simp only [busWrite, if_neg hbe, hreg, h0, hb, if_true]

/-- The operations whose acceptance clears the outputs. -/
theorem Op.clearsOutputs_iff {op : Op} :
    Op.clearsOutputs op = true ↔ op = .generate ∨ op = .generateSeed ∨ op = .clear := by
  cases op <;> decide

/-- The whole state after acceptance. -/
theorem accept_eq : accept d s = { s with
    pend := some (decodeOp d)
    status := s.status.accepted d
    code := if Op.clearsOutputs (decodeOp d) then 0 else s.code
    codestr := if Op.clearsOutputs (decodeOp d) then Vector.replicate 6 0 else s.codestr } := by
  unfold accept
  split <;> rfl

/-! ### ILLEGAL -/

/-- Every word from 6 on is illegal. -/
theorem decodeOp_eq_illegal (h : 6 ≤ d.toNat) : decodeOp d = .illegal := by
  rw [decodeOp_toNat]
  split
  · rfl
  next hlt =>
  generalize d.toNat = n at h hlt
  interval_cases n <;> rfl

/-- The acceptance of an illegal word sets PEND and changes STATUS; the outputs stay. -/
theorem accept_illegal (h : decodeOp d = .illegal) :
    accept d s = { s with pend := some .illegal, status := s.status.accepted d } := by
  rw [accept_eq, h]
  rfl

/-- Every form of ILLEGAL completes with the illegal-command code and no other effect. -/
theorem exec_illegal {i : Instr} (h : i.op = some .illegal) : exec i s = .next (s.finished 5) := by
  obtain ⟨u, e, hx, hu⟩ := exec_command s h
  cases hu
  exact hx

end Sys2Proof.Machine
end

section
/-! PROOF. What a CMD write does (40_commands.md R110, 70_reset_and_hazards.md R262), and an illegal word from its write
to its completion (40_commands.md R123). -/

namespace Sys2Proof.Machine

/-- Settles O17: idle, the write is the acceptance of `d`, whose whole state `accept_eq` gives; busy, it is dropped. -/
theorem commandWriteIsAcceptedWhenIdleAndDroppedWhileBusy :
    Obligations.CommandWriteIsAcceptedWhenIdleAndDroppedWhileBusy := by
  intro s data d be hrst h0 hd
  refine ⟨fun hidle => ?_, fun hbusy => ?_⟩
  · rw [exec_wr_cmd_idle hrst hidle h0 hd, accept_eq]
    simp only [Op.clearsOutputs_iff]
    rfl
  · rw [exec_wr (by decide) hrst, busWrite_cmd_busy (by decide) hbusy h0]
    rfl

/-- Settles O27: acceptance of the illegal word touches PEND and STATUS only, and the completion gives PEND its idle
value back, so that STATUS alone differs from the state before the write. -/
theorem illegalWordFromWriteToCompletion : Obligations.IllegalWordFromWriteToCompletion := by
  intro s data d be hrst hidle h0 hd h6
  have hop : decodeOp d = .illegal := decodeOp_eq_illegal h6
  refine ⟨accept d s, exec_wr_cmd_idle hrst hidle h0 hd, ?done, ?errcode, accept_lastop_toNat, ?pend, fun i hi => ?_⟩
  case done => rw [accept_status]; rfl
  case errcode => rw [accept_status]; rfl
  case pend => rw [accept_pend, hop]
  rw [exec_illegal hi, accept_illegal hop, State.finished, State.setStatus, State.setPend, ← hidle]
  rfl

end Sys2Proof.Machine
end

section
/-! SUPPORT for the parse. The value of the digit loop, the sign, and what the parse answers `some` to
(41_parse.md R140, R142), each as the grammar of R141 says it. -/

namespace Sys2Proof.Machine

variable {t ds : List Byte} {n : Nat} {b : Byte} {v : DWord} {x : Int} {neg : Bool}

theorem isDigit_iff : isDigit b = true ↔ 0x30 ≤ b.toNat ∧ b.toNat ≤ 0x39 := by
  simp only [isDigit, Bool.and_eq_true, decide_eq_true_eq]

/-- The accumulator of R140, from 0, is the decimal value. -/
theorem digitsValue_zero (ds : List Byte) : digitsValue ds 0 = asciiValue ds := by
  simp only [digitsValue, asciiValue, Nat.ofDigits_eq_foldr, List.foldr_map, List.foldr_reverse, Nat.cast_id,
    Nat.mul_comm 10, Nat.add_comm]

theorem parseDigits_zero_eq_some_iff :
    parseDigits ds 0 = some n ↔ (∀ b ∈ ds, 0x30 ≤ b.toNat ∧ b.toNat ≤ 0x39) ∧ asciiValue ds = n := by
  simp only [parseDigits_eq, digitsValue_zero, Option.ite_none_right_eq_some, Option.some.injEq,
    List.all_eq_true, isDigit_iff]

theorem outsideS64_eq_false_iff : outsideS64 x = false ↔ -2 ^ 63 ≤ x ∧ x ≤ 2 ^ 63 - 1 := by
  simp only [outsideS64, Bool.or_eq_false_iff, decide_eq_false_iff_not, not_lt]

/-! ### The sign -/

theorem splitSign_plus (ds : List Byte) : splitSign (0x2B :: ds) = (false, ds) := rfl

theorem splitSign_minus (ds : List Byte) : splitSign (0x2D :: ds) = (true, ds) := rfl

/-- A digit is no sign, so a string of digits has none. -/
theorem splitSign_digits (hdig : ∀ b ∈ ds, 0x30 ≤ b.toNat ∧ b.toNat ≤ 0x39) : splitSign ds = (false, ds) := by
  cases ds with
  | nil => rfl
  | cons b rest =>
    have h30 : 0x30 ≤ b.toNat := (hdig b List.mem_cons_self).1
    have hminus : b ≠ 0x2D := by rintro rfl; exact absurd h30 (by decide)
    have hplus : b ≠ 0x2B := by rintro rfl; exact absurd h30 (by decide)
    rw [splitSign, if_neg hminus, if_neg hplus]

/-- The text is its sign and what follows it. -/
theorem eq_of_splitSign (h : splitSign t = (neg, ds)) :
    (neg = false ∧ (t = ds ∨ t = 0x2B :: ds)) ∨ (neg = true ∧ t = 0x2D :: ds) := by
  cases t with
  | nil => cases h; exact .inl ⟨rfl, .inl rfl⟩
  | cons b rest =>
    rw [splitSign] at h
    split_ifs at h with hminus hplus <;> cases h
    · exact .inr ⟨rfl, by rw [hminus]⟩
    · exact .inl ⟨rfl, .inr (by rw [hplus])⟩
    · exact .inl ⟨rfl, .inl rfl⟩

/-- The grammar of R141 through the sign split: the split finds the sign, and the digits are all that follows it. -/
theorem readsAs_iff_splitSign :
    ReadsAs t x ↔ (splitSign t).2 ≠ [] ∧ (∀ b ∈ (splitSign t).2, 0x30 ≤ b.toNat ∧ b.toNat ≤ 0x39) ∧
      x = signedValue (splitSign t).1 (asciiValue (splitSign t).2) := by
  constructor
  · rintro ⟨ds, hne, hdig, ⟨rfl | rfl, rfl⟩ | ⟨rfl, rfl⟩⟩
    · rw [splitSign_digits hdig]
      exact ⟨hne, hdig, rfl⟩
    · rw [splitSign_plus]
      exact ⟨hne, hdig, rfl⟩
    · rw [splitSign_minus]
      exact ⟨hne, hdig, rfl⟩
  · rcases hsplit : splitSign t with ⟨neg, ds⟩
    rintro ⟨hne, hdig, rfl⟩
    obtain ⟨rfl, ht⟩ | ⟨rfl, ht⟩ := eq_of_splitSign hsplit
    · exact ⟨ds, hne, hdig, .inl ⟨ht, rfl⟩⟩
    · exact ⟨ds, hne, hdig, .inr ⟨ht, rfl⟩⟩

/-! ### The answer -/

/-- A length of 0 or above CHAL_MAX is rejected before the text is looked at. -/
theorem parseChallenge_of_bad_length (hn : n = 0 ∨ 32 < n) : parseChallenge t n = none := if_pos hn

/-- The parse answers a value when each of its tests passes: a length in range, something after the sign, only digits
there, and a value in s64. -/
theorem parseChallenge_eq_some_iff (hn : ¬(n = 0 ∨ 32 < n)) :
    parseChallenge t n = some v ↔ (splitSign t).2 ≠ [] ∧ ∃ acc, parseDigits (splitSign t).2 0 = some acc ∧
      outsideS64 (signedValue (splitSign t).1 acc) = false ∧
      BitVec.ofInt 64 (signedValue (splitSign t).1 acc) = v := by
  rw [parseChallenge, Config.chalMax, if_neg hn]
  cases parseDigits (splitSign t).2 0 <;> simp

/-- The parse by the grammar of R141 and the range of R142. -/
theorem parseChallenge_eq_some_iff_readsAs (hn : ¬(n = 0 ∨ 32 < n)) :
    parseChallenge t n = some v ↔
      ∃ x : Int, ReadsAs t x ∧ -2 ^ 63 ≤ x ∧ x ≤ 2 ^ 63 - 1 ∧ v = BitVec.ofInt 64 x := by
  simp only [parseChallenge_eq_some_iff hn, parseDigits_zero_eq_some_iff, outsideS64_eq_false_iff,
    readsAs_iff_splitSign]
  constructor
  · rintro ⟨hne, _, ⟨hdig, rfl⟩, ⟨hlo, hhi⟩, rfl⟩
    exact ⟨_, ⟨hne, hdig, rfl⟩, hlo, hhi, rfl⟩
  · rintro ⟨_, ⟨hne, hdig, rfl⟩, hlo, hhi, rfl⟩
    exact ⟨hne, _, ⟨hdig, rfl⟩, ⟨hlo, hhi⟩, rfl⟩

end Sys2Proof.Machine
end

section
/-! PROOF. The language and the value of the challenge parse (41_parse.md R141). -/

namespace Sys2Proof.Machine

/-- Settles O36: at a length in range the parse's tests are the grammar and the range; at any other it rejects. -/
theorem parseReadsSignedDecimals : Obligations.ParseReadsSignedDecimals :=
  ⟨fun _ hlo hhi _ => parseChallenge_eq_some_iff_readsAs (by omega), fun _ _ => parseChallenge_of_bad_length⟩

end Sys2Proof.Machine
end

section
/-! SUPPORT for SHA-1 and HMAC. The big-endian bytes and words as numbers (00_scope.md R8), the schedule, the rounds and
the blocks one by one (42_hmac_sha1.md R167 to R172), the padding's zero bytes (R166) and the key block (R180). -/

namespace Sys2Proof.Machine

variable {p : List Byte} {ws : List Word} {t i : Nat}

/-! ### Big-endian bytes and words as numbers -/

theorem toNat_append_eq_add {u w : Nat} (x : BitVec u) (y : BitVec w) :
    (x ++ y).toNat = x.toNat * 2 ^ w + y.toNat := by
  rw [BitVec.toNat_append, ← Nat.shiftLeft_add_eq_or_of_lt y.isLt, Nat.shiftLeft_eq]

/-- The word at `i` is its four bytes side by side: bit `j` is in byte `j / 8` of both. -/
theorem be32_eq_append (b : List Byte) (i : Nat) :
    be32 b i = byteAt b i ++ byteAt b (i + 1) ++ byteAt b (i + 2) ++ byteAt b (i + 3) := by
  ext j hj
  simp only [be32, BitVec.getElem_or, BitVec.getElem_shiftLeft, BitVec.getElem_setWidth]
  grind

theorem be32_toNat (b : List Byte) (i : Nat) :
    (be32 b i).toNat = (byteAt b i).toNat * 2 ^ 24 + (byteAt b (i + 1)).toNat * 2 ^ 16 +
      (byteAt b (i + 2)).toNat * 2 ^ 8 + (byteAt b (i + 3)).toNat := by
  simp only [be32_eq_append, toNat_append_eq_add]
  omega

theorem beBytes4_map_toNat (v : Word) : (beBytes4 v).map BitVec.toNat =
    [v.toNat / 2 ^ 24, v.toNat / 2 ^ 16 % 256, v.toNat / 2 ^ 8 % 256, v.toNat % 256] := by
  have htop : v.toNat / 2 ^ 24 % 2 ^ 8 = v.toNat / 2 ^ 24 := Nat.mod_eq_of_lt (by omega)
  simp only [beBytes4, List.map_cons, List.map_nil, BitVec.extractLsb'_toNat, Nat.shiftRight_eq_div_pow, htop]
  rw [pow_zero, Nat.div_one]

theorem beBytes8_map_toNat (v : DWord) : (beBytes8 v).map BitVec.toNat =
    [v.toNat / 2 ^ 56 % 256, v.toNat / 2 ^ 48 % 256, v.toNat / 2 ^ 40 % 256, v.toNat / 2 ^ 32 % 256,
      v.toNat / 2 ^ 24 % 256, v.toNat / 2 ^ 16 % 256, v.toNat / 2 ^ 8 % 256, v.toNat % 256] := by
  simp only [beBytes8, List.map_append, beBytes4_map_toNat, BitVec.extractLsb'_toNat, Nat.shiftRight_eq_div_pow,
    List.cons_append, List.nil_append, List.cons.injEq, and_true]
  omega

theorem sha1Output_map_toNat (h : Sha1Vars) : (sha1Output h).map BitVec.toNat =
    [h.a, h.b, h.c, h.d, h.e].flatMap fun w =>
      [w.toNat / 2 ^ 24, w.toNat / 2 ^ 16 % 256, w.toNat / 2 ^ 8 % 256, w.toNat % 256] := by
  simp only [sha1Output, List.map_append, beBytes4_map_toNat, List.flatMap_cons, List.flatMap_nil, List.append_nil,
    List.append_assoc]

/-! ### The schedule -/

@[simp] theorem sha1BlockWords_length (b : List Byte) : (sha1BlockWords b).length = 16 := by simp [sha1BlockWords]

@[simp] theorem sha1Schedule_length (b : List Byte) : (sha1Schedule b).length = 80 := by
  simp [sha1Schedule, sha1Extend_length]

/-- Word `t` of a schedule in time order is made from the earlier words as R171's recurrence says. -/
def FollowsRecurrence (W : List Word) (t : Nat) : Prop :=
  W.getD t 0 =
    (W.getD (t - 3) 0 ^^^ W.getD (t - 8) 0 ^^^ W.getD (t - 14) 0 ^^^ W.getD (t - 16) 0).rotateLeft 1

/-- Extending the schedule keeps the words it has; word `t` in time order stands at `t` of the reversed list. -/
theorem sha1Extend_reverse_getD (n : Nat) (ht : t < ws.length) :
    (sha1Extend n ws).reverse.getD t 0 = ws.reverse.getD t 0 := by
  induction n generalizing ws with
  | zero => rfl
  | succ n ih =>
    rw [sha1Extend, ih (by simp only [List.length_cons]; omega), List.reverse_cons,
      List.getD_append _ _ _ _ (by simpa using ht)]

/-- Every word that extending adds follows the recurrence: the next one is computed from the latest words, which the
later steps keep. -/
theorem sha1Extend_followsRecurrence {n : Nat} (hws : 16 ≤ ws.length) (hlo : ws.length ≤ t)
    (hhi : t < ws.length + n) : FollowsRecurrence (sha1Extend n ws).reverse t := by
  induction n generalizing ws with
  | zero => omega
  | succ n ih =>
    obtain rfl | hlt := hlo.eq_or_lt
    · have back {j : Nat} (hj : j < ws.length) :
          (sha1Extend (n + 1) ws).reverse.getD (ws.length - (j + 1)) 0 = ws.getD j 0 := by
        rw [sha1Extend_reverse_getD _ (by omega), List.getD_reverse _ (by omega)]
        congr 1
        omega
      rw [FollowsRecurrence, back (by omega), back (by omega), back (by omega), back (by omega), sha1Extend,
        sha1Extend_reverse_getD _ (by simp), List.getD_reverse _ (by simp)]
      simp
    · exact ih (by simp; omega) hlt (by simp; omega)

theorem sha1Schedule_getD_block (b : List Byte) (ht : t < 16) : (sha1Schedule b).getD t 0 = be32 b (4 * t) := by
  rw [sha1Schedule, sha1Extend_reverse_getD _ (by simpa using ht), List.reverse_reverse, sha1BlockWords,
    List.getD_eq_getElem _ _ (by simpa using ht), List.getElem_map, List.getElem_range]

/-! ### The rounds and the blocks -/

theorem sha1F_eq (t : Nat) (x y z : Word) : sha1F t x y z =
    if t < 20 then (x &&& y) ^^^ (~~~x &&& z)
    else if 40 ≤ t ∧ t < 60 then (x &&& y) ^^^ (x &&& z) ^^^ (y &&& z)
    else x ^^^ y ^^^ z := by
  rw [sha1F]
  by_cases h40 : t < 40
  · simp [h40, Nat.not_le.2 h40]
  · simp [h40, Nat.le_of_not_lt h40]

/-- One more schedule word is one more round, after all the others. -/
theorem sha1Rounds_concat (ws : List Word) (w : Word) (t : Nat) (v : Sha1Vars) :
    sha1Rounds (ws ++ [w]) t v = sha1Round (sha1Rounds ws t v) (t + ws.length) w := by
  induction ws generalizing t v with
  | nil => rfl
  | cons x xs ih =>
    rw [List.cons_append, sha1Rounds, ih, sha1Rounds, List.length_cons, Nat.add_right_comm, Nat.add_assoc]

/-- Round `t` of the compression, after the rounds over the first `t` schedule words. -/
theorem sha1Rounds_take_succ (v : Sha1Vars) (ht : t < ws.length) :
    sha1Rounds (ws.take (t + 1)) 0 v = sha1Round (sha1Rounds (ws.take t) 0 v) t (ws.getD t 0) := by
  rw [← List.take_append_getElem ht, sha1Rounds_concat, List.length_take_of_le ht.le, Nat.zero_add,
    List.getD_eq_getElem _ _ ht]

/-- The hash after the first `i` blocks of a padded message (R165). -/
def sha1HashAfter (p : List Byte) (i : Nat) : Sha1Vars := ((sha1Blocks p).take i).foldl sha1Compress sha1Init

theorem sha1HashAfter_succ (hi : i < p.length / 64) :
    sha1HashAfter p (i + 1) = sha1Compress (sha1HashAfter p i) ((p.drop (64 * i)).take 64) := by
  have hlen : i < (sha1Blocks p).length := by rwa [sha1Blocks_length]
  rw [sha1HashAfter, ← List.take_append_getElem hlen, List.foldl_concat]
  simp only [sha1Blocks, List.getElem_map, List.getElem_range, Config.sha1Block]
  rfl

theorem sha1_eq_output (m : List Byte) : sha1 m = sha1Output (sha1HashAfter (sha1Pad m) ((sha1Pad m).length / 64)) := by
  rw [sha1, sha1HashAfter, ← sha1Blocks_length, List.take_length]

/-! ### The padding and the key block -/

theorem sha1Pad_length_mod (m : List Byte) : (sha1Pad m).length % 64 = 0 := by
  rw [sha1Pad_length]
  omega

/-- Filling up with zeroes keeps every entry, past the end too. -/
theorem append_replicate_zero_getD (b : List Byte) (n i : Nat) :
    (b ++ List.replicate n 0).getD i 0 = b.getD i 0 := by
  obtain h | h := lt_or_ge i b.length
  · exact List.getD_append _ _ _ _ h
  · rw [List.getD_append_right _ _ _ _ h, List.getD_eq_default _ _ h, List.getD_eq_getElem?_getD,
      List.getElem?_getD_replicate_default_eq]

/-- The key block is the key, or the hash of a key above 64 bytes, filled up with zero bytes (R180). -/
theorem hmacKeyBlock_eq (k : List Byte) : hmacKeyBlock k =
    (if 64 < k.length then sha1 k else k) ++
      List.replicate (64 - (if 64 < k.length then sha1 k else k).length) 0 := by
  unfold hmacKeyBlock
  split_ifs <;> rfl

/-- The key block of every key has 64 bytes, of a key above 64 bytes too. -/
theorem hmacKeyBlock_length_eq (k : List Byte) : (hmacKeyBlock k).length = 64 := by
  have hle : (if 64 < k.length then sha1 k else k).length ≤ 64 := by
    split_ifs with hk
    · exact (sha1_length k).trans_le (by decide)
    · exact Nat.not_lt.1 hk
  rw [hmacKeyBlock_eq, List.length_append, List.length_replicate]
  omega

end Sys2Proof.Machine
end

section
/-! PROOF. SHA-1's padding, chain of blocks, schedule and rounds, the counter frame and HMAC, each as
42_hmac_sha1.md R162 to R180 writes it. -/

namespace Sys2Proof.Machine

/-- Settles O45: extending the schedule keeps the block's 16 words, and each word it adds follows the recurrence. -/
theorem sha1ScheduleFollowsItsRecurrence : Obligations.Sha1ScheduleFollowsItsRecurrence := by
  refine fun block => ⟨sha1Schedule_length block, fun t ht => ?_, fun t hlo hhi => ?_⟩
  · rw [sha1Schedule_getD_block block ht]
    exact be32_toNat block (4 * t)
  · exact sha1Extend_followsRecurrence (by simp) (by simpa using hlo) (by simpa using hhi)

/-- Settles O46: v(t) is the rounds over the first `t` words of the schedule. -/
theorem sha1CompressionIsEightyRounds : Obligations.Sha1CompressionIsEightyRounds := by
  intro h block
  refine ⟨fun t => sha1Rounds ((sha1Schedule block).take t) 0 h, rfl, fun t ht => ?_, ?_⟩
  · have hround := sha1Rounds_take_succ h (ht.trans_eq (sha1Schedule_length block).symm)
    simp only [hround, ← sha1F_eq]
    exact ⟨rfl, rfl, rfl, rfl, rfl⟩
  · have hall : (sha1Schedule block).take 80 = sha1Schedule block :=
      List.take_of_length_le (sha1Schedule_length block).le
    simp only [hall]
    rfl

/-- Settles O58: h(i) is the hash after the first `i` blocks. -/
theorem sha1ChainsTheBlocksFromTheInitialHash : Obligations.Sha1ChainsTheBlocksFromTheInitialHash := by
  refine fun m => ⟨sha1HashAfter (sha1Pad m), rfl, fun i hi => sha1HashAfter_succ hi, ?_⟩
  rw [sha1_eq_output, sha1Output_map_toNat]

/-- Settles O37: the frame's last four bytes are those of the seed modulo 2^32. -/
theorem counterFrameIsTheLowWordBigEndian : Obligations.CounterFrameIsTheLowWordBigEndian := by
  intro seed
  rw [counterFrame, List.map_append, beBytes4_map_toNat, BitVec.toNat_setWidth]
  simp only [List.map_cons, List.map_nil, List.cons_append, List.nil_append, List.cons.injEq, and_true]
  refine ⟨rfl, rfl, rfl, rfl, ?_⟩
  omega

/-- Settles O44: `k` is the model's count of zero bytes, which is below 64 and so the least one of its residue. -/
theorem sha1PaddingIsTheLeastToAWholeBlock : Obligations.Sha1PaddingIsTheLeastToAWholeBlock := by
  intro m
  refine ⟨(119 - m.length % 64) % 64, ?_, by omega, fun j hj => by omega, sha1Pad_length_mod m⟩
  rw [sha1Pad, List.map_append, beBytes8_map_toNat, BitVec.toNat_ofNat]
  simp only [List.map_append, List.map_replicate]
  congr 1
  simp only [List.cons.injEq, and_true]
  omega

/-- Settles O47: K0 is the key block. -/
theorem hmacHashesTwiceUnderThePaddedKey : Obligations.HmacHashesTwiceUnderThePaddedKey := by
  refine fun k m => ⟨hmacKeyBlock k, hmacKeyBlock_length_eq k, fun i _ => ?_, rfl⟩
  rw [hmacKeyBlock_eq]
  exact append_replicate_zero_getD _ _ i

end Sys2Proof.Machine
end

section
/-! SUPPORT for the truncation and the formatting. The offset, the masked window and the code as numbers
(43_truncate_format.md R200 to R203), and the formatted digits, by position and read together (R205). -/

namespace Sys2Proof.Machine

variable {b : List Byte} {i : Nat}

/-! ### The truncation -/

/-- Inside a byte sequence the zero default of `byteAt` plays no part. -/
theorem getElem?_eq_some_byteAt (hi : i < b.length) : b[i]? = some (byteAt b i) := by
  rw [byteAt, List.getD_eq_getElem _ _ hi, List.getElem?_eq_getElem hi]

/-- Masking with the low four bits is the remainder modulo 16. -/
theorem truncOffset_eq_mod (digest : List Byte) : truncOffset digest = (byteAt digest 19).toNat % 16 :=
  (BitVec.toNat_and ..).trans (Nat.and_two_pow_sub_one_eq_mod _ 4)

/-- Clearing the sign bit of the window takes its first byte modulo 128. -/
theorem truncMasked_toNat (digest : List Byte) : (truncMasked digest).toNat =
    (byteAt digest (truncOffset digest)).toNat % 128 * 2 ^ 24 +
      (byteAt digest (truncOffset digest + 1)).toNat * 2 ^ 16 +
      (byteAt digest (truncOffset digest + 2)).toNat * 2 ^ 8 +
      (byteAt digest (truncOffset digest + 3)).toNat := by
  have hmask : (truncMasked digest).toNat = (be32 digest (truncOffset digest)).toNat % 2 ^ 31 :=
    (BitVec.toNat_and ..).trans (Nat.and_two_pow_sub_one_eq_mod _ 31)
  rw [hmask, be32_toNat]
  omega

/-- The 20 bits of a code hold the whole remainder. -/
theorem truncate_toNat (digest : List Byte) : (truncate digest).toNat = (truncMasked digest).toNat % 1000000 := by
  have hlt : (truncMasked digest).toNat % 1000000 < 2 ^ 20 := (Nat.mod_lt _ (by decide)).trans (by decide)
  exact Nat.mod_eq_of_lt hlt

/-! ### The digits -/

theorem formatCode_getElem (code : BitVec 20) (hi : i < 6) : (formatCode code)[i] = digitAt code (5 - i) := by
  interval_cases i <;> rfl

theorem formatCode_toList_reverse (code : BitVec 20) :
    (formatCode code).toList.reverse = (List.range 6).map (digitAt code) := rfl

/-- The lowest `n` decimal digits of a number, the least significant first, have its remainder modulo 10^n as their
value. -/
theorem ofDigits_range_div_mod (c n : Nat) :
    Nat.ofDigits 10 ((List.range n).map fun k => c / 10 ^ k % 10) = c % 10 ^ n := by
  induction n with
  | zero => rw [pow_zero, Nat.mod_one]; rfl
  | succ n ih =>
    rw [List.range_succ, List.map_append, Nat.ofDigits_append, ih, List.length_map, List.length_range,
      List.map_singleton, Nat.ofDigits_singleton, Nat.mod_pow_succ]

/-- The formatted string reads as the code modulo 10^6. -/
theorem asciiValue_formatCode (code : BitVec 20) : asciiValue (formatCode code).toList = code.toNat % 10 ^ 6 := by
  rw [asciiValue, formatCode_toList_reverse, List.map_map, ← ofDigits_range_div_mod]
  simp only [Function.comp_def, digitAt_toNat, Nat.add_sub_cancel_left]

end Sys2Proof.Machine
end

section
/-! PROOF. The truncation in plain arithmetic and the six digits of a formatted code (43_truncate_format.md R200 to
R205). -/

namespace Sys2Proof.Machine

/-- Settles O41: the window's bytes are those at the offset, which is at most 15, so all of them are in the digest. -/
theorem truncationFollowsItsArithmetic : Obligations.TruncationFollowsItsArithmetic := by
  intro digest hlen
  have hoff : truncOffset digest ≤ 15 := by
    rw [truncOffset_eq_mod]
    omega
  have hbyte {i : Nat} (hi : i < 20) : digest[i]? = some (byteAt digest i) := getElem?_eq_some_byteAt (by omega)
  refine ⟨truncOffset digest, _, _, _, _, _, hbyte (by omega), truncOffset_eq_mod digest, by omega, hbyte (by omega),
    hbyte (by omega), hbyte (by omega), hbyte (by omega), ?_, Nat.le_of_lt_succ (truncate_lt digest)⟩
  rw [truncate_toNat, truncMasked_toNat]

/-- Settles O42: byte `i` is the digit of 10^(5 - i), and six digits are the whole of a code below 10^6. -/
theorem formatWritesSixDecimalDigits : Obligations.FormatWritesSixDecimalDigits := by
  refine fun code hle => ⟨fun i hi => ?_, ?_⟩
  · have hdigit := digitAt_toNat code (5 - i)
    rw [formatCode_getElem code hi]
    exact ⟨hdigit, by omega, by omega⟩
  · rw [asciiValue_formatCode, Nat.mod_eq_of_lt (by omega)]

end Sys2Proof.Machine
end

section
/-! SUPPORT for the writes while busy. A strobed lane of the strobed word (20_memory.md R65), what a CTRL write answers
while busy (70_reset_and_hazards.md R261), and the input registers with what a write to them answers (R260). -/

namespace Sys2Proof.Machine

variable {data : Word} {be : BitVec 4} {off : BitVec 8} {s : State}

theorem State.busy_iff : s.busy = true ↔ s.pend ≠ none := Option.isSome_iff_ne_none

/-! ### Strobed lanes -/

/-- A bit of a strobed lane is the data's. -/
theorem masked_getLsbD_of_strobed {i : Nat} (hi : i < 32) (hbe : be.getLsbD (i / 8) = true) :
    (data &&& strobeMask be).getLsbD i = data.getLsbD i := by
  rw [masked_getLsbD data be hi, hbe, Bool.and_true]

/-- A field that lies in one strobed lane is the data's. -/
theorem masked_extractLsb'_of_strobed {j start len : Nat} (hbe : be.getLsbD j = true) (hlo : 8 * j ≤ start)
    (hhi : start + len ≤ 8 * j + 8) :
    (data &&& strobeMask be).extractLsb' start len = data.extractLsb' start len := by
  have hj : j < 4 := BitVec.lt_of_getLsbD hbe
  apply BitVec.eq_of_getLsbD_eq
  intro i hi
  have hlane : (start + i) / 8 = j := by omega
  rw [BitVec.getLsbD_extractLsb', BitVec.getLsbD_extractLsb', masked_getLsbD_of_strobed (by omega) (by rwa [hlane])]

/-! ### CTRL while busy -/

/-- Each policy field is compared under the strobe of its own lane, so the strobed word asks for what the data asks. -/
theorem policyChanged_masked_iff (c : Ctrl) : policyChanged c (data &&& strobeMask be) be = true ↔
    (be.getLsbD 0 = true ∧ (data.getLsbD 1 ≠ c.klenChk ∨ data.getLsbD 2 ≠ c.clenChk)) ∨
    (be.getLsbD 1 = true ∧ data.extractLsb' 8 7 ≠ c.klenReq) ∨
    (be.getLsbD 2 = true ∧ data.extractLsb' 16 6 ≠ c.clenReq) := by
  simp only [policyChanged, Bool.or_eq_true, Bool.and_eq_true, bne_iff_ne, or_assoc]
  refine or_congr (and_congr_right fun h => ?_) (or_congr (and_congr_right fun h => ?_) (and_congr_right fun h => ?_))
  · rw [masked_getLsbD_of_strobed (by decide) h, masked_getLsbD_of_strobed (by decide) h]
  · rw [masked_extractLsb'_of_strobed h (by decide) (by decide)]
  · rw [masked_extractLsb'_of_strobed h (by decide) (by decide)]

/-- A busy write to CTRL is `CtrlWriteWhileBusy` of its strobed word; with no strobe that changes nothing either. -/
theorem busWrite_ctrl_busy (hreg : regAt off = .ctrl) (hbusy : s.pend ≠ none) :
    busWrite off data be s = ctrlWriteWhileBusy (data &&& strobeMask be) be s := by
  by_cases hbe : be = 0
  · subst hbe
    rw [busWrite, if_pos rfl]
    rfl
  · simp only [busWrite, if_neg hbe, hreg, State.busy_iff.2 hbusy, if_true]

/-! ### The input registers -/

/-- The registers that hold a command's inputs (70_reset_and_hazards.md R260). -/
def Reg.isInput : Reg → Bool
  | .keylen | .challen | .seedLo | .seedHi | .key _ | .chal _ => true
  | .id | .param | .ctrl | .cmd | .status | .code | .codestr0 | .codestr1 | .reserved => false

/-- The offsets of the input registers (10_state.md R22). -/
theorem isInput_regAt_iff (ha : aligned off = true) : (regAt off).isInput = true ↔
    off = 0x14 ∨ off = 0x18 ∨ off = 0x20 ∨ off = 0x24 ∨ (0x40 ≤ off.toNat ∧ off.toNat ≤ 0x7C) ∨
      (0x80 ≤ off.toNat ∧ off.toNat ≤ 0x9C) := by
  revert off
  decide

/-- A busy strobed write to an input register is dropped. -/
theorem busWrite_input_busy (hreg : (regAt off).isInput = true) (hbusy : s.pend ≠ none) (hbe : be ≠ 0) :
    busWrite off data be s = s.dropWrite := by
  have drop (f : State → State) : inputWrite f s = s.dropWrite := if_pos (State.busy_iff.2 hbusy)
  unfold busWrite
  rw [if_neg hbe]
  cases h : regAt off with
  | keylen | challen | seedLo | seedHi | key | chal => exact drop _
  | _ =>
    rw [h] at hreg
    cases hreg

end Sys2Proof.Machine
end

section
/-! PROOF. What a CTRL write (70_reset_and_hazards.md R261) and a write to an input register (R260) do while busy. -/

namespace Sys2Proof.Machine

/-- Settles O16: the write is `CtrlWriteWhileBusy` of the strobed word, whose IE and policy fields are the data's in
every strobed lane. -/
theorem ctrlWriteWhileBusyUpdatesIeOnly : Obligations.CtrlWriteWhileBusyUpdatesIeOnly := by
  intro s data be hrst hbusy
  refine ⟨s.status.ovr || policyChanged s.ctrl (data &&& strobeMask be) be, ?state, ?ovr⟩
  case state =>
    have hie : (if be.getLsbD 0 then (data &&& strobeMask be).getLsbD 0 else s.ctrl.ie) =
        if be.getLsbD 0 then data.getLsbD 0 else s.ctrl.ie :=
      ite_congr rfl (masked_getLsbD_of_strobed (i := 0) (by decide)) fun _ => rfl
    rw [exec_wr (by decide) hrst, busWrite_ctrl_busy (by decide) hbusy, ctrlWriteWhileBusy_eq, hie]
  case ovr => rw [Bool.or_eq_true, policyChanged_masked_iff]

/-- Settles O24: the register at each of these offsets is an input register, and a busy write to one is dropped. -/
theorem inputWriteWhileBusyIsDroppedWithOvr : Obligations.InputWriteWhileBusyIsDroppedWithOvr := by
  intro s off data be hrst hbusy hbe ha hoff
  rw [exec_wr ha hrst, busWrite_input_busy ((isInput_regAt_iff ha).2 hoff) hbusy hbe]
  rfl

end Sys2Proof.Machine
end

section
/-! SUPPORT for the encoder. The fields of an encoded record (30_encoding.md R95), and the two forms of a command word:
one with a bit of 31:4 set, and one of the sixteen others (R93). -/

namespace Sys2Proof.Machine

variable (kind be : BitVec 4) (off : BitVec 8) (data : Word)

/-! ### The fields of an encoded record -/

@[simp] theorem recordData_encodeRecord : recordData (encodeRecord kind be off data) = data := by
  rw [recordData, encodeRecord, BitVec.extractLsb'_append_eq_right]

@[simp] theorem recordOff_encodeRecord : recordOff (encodeRecord kind be off data) = off := by
  rw [recordOff, encodeRecord, BitVec.extractLsb'_append_eq_of_le (by decide), BitVec.extractLsb'_append_eq_right]

@[simp] theorem recordBe_encodeRecord : recordBe (encodeRecord kind be off data) = be := by
  rw [recordBe, encodeRecord, BitVec.extractLsb'_append_eq_of_le (by decide),
    BitVec.extractLsb'_append_eq_of_le (by decide), BitVec.extractLsb'_append_eq_right]

@[simp] theorem recordKind_encodeRecord : recordKind (encodeRecord kind be off data) = kind := by
  rw [recordKind, encodeRecord, BitVec.extractLsb'_append_eq_of_le (by decide),
    BitVec.extractLsb'_append_eq_of_le (by decide), BitVec.extractLsb'_append_eq_of_le (by decide),
    BitVec.extractLsb'_append_eq_right]

@[simp] theorem recordRsvd_encodeRecord : recordRsvd (encodeRecord kind be off data) = 0 := by
  rw [recordRsvd, encodeRecord, BitVec.extractLsb'_append_eq_of_le (by decide),
    BitVec.extractLsb'_append_eq_of_le (by decide), BitVec.extractLsb'_append_eq_of_le (by decide),
    BitVec.extractLsb'_append_eq_left]
  rfl

theorem decodeRecord_encodeRecord_rd (ha : aligned off = true) :
    decodeRecord (encodeRecord 1 be off data) = .ok (.rd off) := by
  rw [decodeRecord_rd (recordRsvd_encodeRecord ..) (recordKind_encodeRecord ..)
    (by rwa [recordOff_encodeRecord]), recordOff_encodeRecord]

theorem decodeRecord_encodeRecord_wr (ha : aligned off = true) :
    decodeRecord (encodeRecord 2 be off data) = .ok (.wr off data be) := by
  rw [decodeRecord_wr (recordRsvd_encodeRecord ..) (recordKind_encodeRecord ..)
    (by rwa [recordOff_encodeRecord]), recordOff_encodeRecord, recordData_encodeRecord, recordBe_encodeRecord]

/-! ### Command words -/

/-- A word put together with a bit of 31:4 set is read back as the default ILLEGAL row's. -/
theorem decodeCommand_append {rsvd : BitVec 28} (op : BitVec 4) (h : rsvd ≠ 0) :
    decodeCommand (rsvd ++ op) = .illegalWord op rsvd := by
  have hhi : (rsvd ++ op).extractLsb' 4 28 = rsvd := BitVec.extractLsb'_append_eq_left
  have hlo : (rsvd ++ op).extractLsb' 0 4 = op := BitVec.extractLsb'_append_eq_right
  rw [decodeCommand_reserved (by rwa [hhi]), hhi, hlo]

/-- A word with bits 31:4 zero is its four low bits. -/
theorem eq_zero_append_of_high_eq_zero {d : Word} (h : d.extractLsb' 4 28 = 0) : d = 0#28 ++ d.extractLsb' 0 4 := by
  conv_lhs => rw [← commandWord_split d, h]
  rfl

/-- Each of the sixteen words with bits 31:4 zero has a row of its own, which keeps the bits it leaves open. -/
theorem encode_decodeCommand_low (op : BitVec 4) : encode (decodeCommand (0#28 ++ op)) = .command (0#28 ++ op) ∧
    (decodeCommand (0#28 ++ op)).wellFormed = true := by
  revert op
  decide

end Sys2Proof.Machine
end

section
/-! PROOF. The decoder is the encoder's inverse on well-formed instructions, and the encoder the decoder's on command
words (30_encoding.md R90 to R95). -/

namespace Sys2Proof.Machine

/-- Settles O1: a fixed or reserved word is one of few, a default ILLEGAL word is the append of its fields, and a record
holds each field of its transaction. -/
theorem decodeOfEncodeIsTheInstruction : Obligations.DecodeOfEncodeIsTheInstruction := by
  intro i hwf
  cases i with
  | nop | generate | generateSeed | parse | clear | zeroize => rfl
  | illegalLow low => revert low; decide
  | illegalHigh low => revert low; decide
  | illegalWord op rsvd => exact congrArg Except.ok (decodeCommand_append op (bne_iff_ne.1 hwf))
  | rd off => exact decodeRecord_encodeRecord_rd 0xF off 0 hwf
  | wr off data be => exact decodeRecord_encodeRecord_wr be off data hwf

/-- Settles O2: a word with a bit of 31:4 set is the append of the two fields its row keeps; the others are sixteen. -/
theorem everyCommandWordIsOneCommand : Obligations.EveryCommandWordIsOneCommand := by
  intro d
  by_cases hhi : d.extractLsb' 4 28 = 0
  · rw [eq_zero_append_of_high_eq_zero hhi]
    exact encode_decodeCommand_low _
  · rw [decodeCommand_reserved hhi]
    exact ⟨congrArg Code.command (commandWord_split d), bne_iff_ne.2 hhi⟩

/-- Settles O5: every word is a literal, on which the decoder computes. -/
theorem specWordsDecode : Obligations.SpecWordsDecode := by
  unfold Obligations.SpecWordsDecode
  decide

end Sys2Proof.Machine
end

section
/-! SUPPORT for the completions. The checks of 40_commands.md R114 by the registers they read, what each branch of
PARSE, GENERATE_SEED and GENERATE answers (R116, R118, R120), and the frame and the outputs of every command (R124). -/

namespace Sys2Proof.Machine

variable {s t u : State} {op : Op} {e : BitVec 4} {v : DWord}

/-! ### The checks -/

theorem keyPolicyFail_iff : s.keyPolicyFail = true ↔ s.ctrl.klenChk = true ∧ s.keylen ≠ s.ctrl.klenReq := by
  rw [State.keyPolicyFail, Bool.and_eq_true, bne_iff_ne]

theorem keyPolicyFail_eq_false_iff :
    s.keyPolicyFail = false ↔ s.ctrl.klenChk = false ∨ s.keylen = s.ctrl.klenReq := by
  rw [State.keyPolicyFail, Bool.and_eq_false_iff, bne_eq_false_iff_eq]

theorem chalPolicyFail_iff : s.chalPolicyFail = true ↔ s.ctrl.clenChk = true ∧ s.challen ≠ s.ctrl.clenReq := by
  rw [State.chalPolicyFail, Bool.and_eq_true, bne_iff_ne]

theorem chalPolicyFail_eq_false_iff :
    s.chalPolicyFail = false ↔ s.ctrl.clenChk = false ∨ s.challen = s.ctrl.clenReq := by
  rw [State.chalPolicyFail, Bool.and_eq_false_iff, bne_eq_false_iff_eq]

theorem keyUnusable_iff : s.keyUnusable = true ↔ s.keylen.toNat = 0 ∨ 64 < s.keylen.toNat := by
  rw [State.keyUnusable, Bool.or_eq_true, beq_iff_eq, decide_eq_true_eq, ← BitVec.toNat_inj]
  rfl

theorem keyUnusable_eq_false_iff : s.keyUnusable = false ↔ 1 ≤ s.keylen.toNat ∧ s.keylen.toNat ≤ 64 := by
  rw [← Bool.not_eq_true, keyUnusable_iff]
  omega

/-! ### PARSE, branch by branch (R116) -/

/-- The outcome code of a completion is the ERRCODE it leaves. -/
theorem errcode_eq_zero_of_next {r : Result} (h : r = .next (u.finished e)) (hx : r = .next t)
    (hok : t.status.errcode = 0) : e = 0 := by
  cases h.symm.trans hx
  exact hok

theorem exec_parse_of_chalPolicyFail (hchal : s.chalPolicyFail = true) : exec .parse s = .next (s.finished 7) := by
  rw [exec, execParse, if_pos hchal, raise_next]
  rfl

theorem exec_parse_of_none (hchal : s.chalPolicyFail = false)
    (hparse : parseChallenge s.challengeText s.challen.toNat = none) : exec .parse s = .next (s.finished 1) := by
  rw [exec, execParse, hchal, if_neg Bool.false_ne_true, hparse]
  exact raise_next .parseError s

theorem exec_parse_of_some (hchal : s.chalPolicyFail = false)
    (hparse : parseChallenge s.challengeText s.challen.toNat = some v) :
    exec .parse s = .next ((s.setSeed v).finished 0) := by
  rw [exec, execParse, hchal, if_neg Bool.false_ne_true, hparse]
  exact finish_zero _

/-- A PARSE that completes without an error has stored the parsed value. -/
theorem exec_parse_of_errcode_zero (hx : exec .parse s = .next t) (hok : t.status.errcode = 0) :
    ∃ v, parseChallenge s.challengeText s.challen.toNat = some v ∧ t = (s.setSeed v).finished 0 := by
  obtain h | h | ⟨v, hv, h⟩ := execParse_cases s
  · exact absurd (errcode_eq_zero_of_next h hx hok) (by decide)
  · exact absurd (errcode_eq_zero_of_next h hx hok) (by decide)
  · cases hx.symm.trans h
    exact ⟨v, hv, rfl⟩

/-! ### GENERATE_SEED, branch by branch (R118) -/

theorem exec_generateSeed_of_keyPolicyFail (hkey : s.keyPolicyFail = true) :
    exec .generateSeed s = .next (s.finished 6) := by
  rw [exec, execGenerateSeed, if_pos hkey, raise_next]
  rfl

theorem exec_generateSeed_of_keyUnusable (hkey : s.keyPolicyFail = false) (hbad : s.keyUnusable = true) :
    exec .generateSeed s = .next (s.finished 2) := by
  rw [exec, execGenerateSeed, hkey, if_neg Bool.false_ne_true, if_pos hbad, raise_next]
  rfl

theorem exec_generateSeed_of_usable (hkey : s.keyPolicyFail = false) (hgood : s.keyUnusable = false) :
    exec .generateSeed s = .next ((s.writeCodeOf s.secret s.seed).finished 0) := by
  rw [exec, execGenerateSeed, hkey, if_neg Bool.false_ne_true, hgood, if_neg Bool.false_ne_true, finish_zero]

/-- A GENERATE_SEED that completes without an error has written the code of SEED. -/
theorem exec_generateSeed_of_errcode_zero (hx : exec .generateSeed s = .next t) (hok : t.status.errcode = 0) :
    t = (s.writeCodeOf s.secret s.seed).finished 0 := by
  obtain h | h | h := execGenerateSeed_cases s
  · exact absurd (errcode_eq_zero_of_next h hx hok) (by decide)
  · exact absurd (errcode_eq_zero_of_next h hx hok) (by decide)
  · cases hx.symm.trans h
    rfl

/-! ### GENERATE, branch by branch (R120) -/

theorem exec_generate_of_keyPolicyFail (hkey : s.keyPolicyFail = true) :
    exec .generate s = .next (s.finished 6) := by
  rw [exec, execGenerate, if_pos hkey, raise_next]
  rfl

theorem exec_generate_of_chalPolicyFail (hkey : s.keyPolicyFail = false) (hchal : s.chalPolicyFail = true) :
    exec .generate s = .next (s.finished 7) := by
  rw [exec, execGenerate, hkey, if_neg Bool.false_ne_true, if_pos hchal, raise_next]
  rfl

theorem exec_generate_of_none (hkey : s.keyPolicyFail = false) (hchal : s.chalPolicyFail = false)
    (hparse : parseChallenge s.challengeText s.challen.toNat = none) : exec .generate s = .next (s.finished 1) := by
  rw [exec, execGenerate, hkey, if_neg Bool.false_ne_true, hchal, if_neg Bool.false_ne_true, hparse]
  exact raise_next .parseError s

theorem exec_generate_of_keyUnusable (hkey : s.keyPolicyFail = false) (hchal : s.chalPolicyFail = false)
    (hparse : parseChallenge s.challengeText s.challen.toNat = some v) (hbad : s.keyUnusable = true) :
    exec .generate s = .next ((s.setSeed v).finished 2) := by
  rw [exec, execGenerate, hkey, if_neg Bool.false_ne_true, hchal, if_neg Bool.false_ne_true, hparse]
  exact (if_pos hbad).trans (raise_next .keyError _)

theorem exec_generate_of_usable (hkey : s.keyPolicyFail = false) (hchal : s.chalPolicyFail = false)
    (hparse : parseChallenge s.challengeText s.challen.toNat = some v) (hgood : s.keyUnusable = false) :
    exec .generate s = .next (((s.setSeed v).writeCodeOf s.secret v).finished 0) := by
  rw [exec, execGenerate, hkey, if_neg Bool.false_ne_true, hchal, if_neg Bool.false_ne_true, hparse]
  exact (if_neg (Bool.eq_false_iff.1 hgood)).trans (finish_zero _)

/-- A GENERATE that completes without an error has stored the parsed value and written its code. -/
theorem exec_generate_of_errcode_zero (hx : exec .generate s = .next t) (hok : t.status.errcode = 0) :
    ∃ v, parseChallenge s.challengeText s.challen.toNat = some v ∧
      t = ((s.setSeed v).writeCodeOf s.secret v).finished 0 := by
  obtain h | h | h | ⟨v, hv, h | h⟩ := execGenerate_cases s
  · exact absurd (errcode_eq_zero_of_next h hx hok) (by decide)
  · exact absurd (errcode_eq_zero_of_next h hx hok) (by decide)
  · exact absurd (errcode_eq_zero_of_next h hx hok) (by decide)
  · exact absurd (errcode_eq_zero_of_next h hx hok) (by decide)
  · cases hx.symm.trans h
    exact ⟨v, hv, rfl⟩

/-! ### Every command (R113, R124) -/

/-- A command's next state is the epilogue of what it performed. -/
theorem performed_of_exec {i : Instr} (hop : i.op = some op) (hx : exec i s = .next t) :
    ∃ u e, Performed s op u e ∧ t = u.finished e := by
  obtain ⟨u, e, h, hu⟩ := exec_command s hop
  rw [h] at hx
  cases hx
  exact ⟨u, e, hu, rfl⟩

/-- No command performs anything on CTRL, STATUS or the ports before its epilogue. -/
theorem Performed.frame (h : Performed s op u e) :
    u.ctrl = s.ctrl ∧ u.status = s.status ∧ u.rstN = s.rstN ∧ u.rdata = s.rdata ∧ u.events = s.events := by
  cases h <;> exact ⟨rfl, rfl, rfl, rfl, rfl⟩

/-- Only ZEROIZE touches the buffers and their lengths. -/
theorem Performed.buffers (h : Performed s op u e) (hz : op ≠ .zeroize) :
    u.keylen = s.keylen ∧ u.challen = s.challen ∧ u.key = s.key ∧ u.chal = s.chal := by
  cases h with
  | zeroize => exact absurd rfl hz
  | _ => exact ⟨rfl, rfl, rfl, rfl⟩

theorem Performed.seed (h : Performed s op u e) (hz : op ≠ .zeroize) (hp : op ≠ .parse) (hg : op ≠ .generate) :
    u.seed = s.seed := by
  cases h with
  | zeroize => exact absurd rfl hz
  | parsed => exact absurd rfl hp
  | generateNoKey | generated => exact absurd rfl hg
  | _ => rfl

theorem Performed.outputs (h : Performed s op u e) (hz : op ≠ .zeroize) (hg : op ≠ .generate)
    (hs : op ≠ .generateSeed) : u.code = s.code ∧ u.codestr = s.codestr := by
  cases h with
  | zeroize => exact absurd rfl hz
  | generated => exact absurd rfl hg
  | seedDone => exact absurd rfl hs
  | _ => exact ⟨rfl, rfl⟩

/-- A command that ends with an error has not touched the outputs (60_exceptions.md R226). -/
theorem Performed.outputs_of_error (h : Performed s op u e) (he : e ≠ 0) :
    u.code = s.code ∧ u.codestr = s.codestr := by
  cases h with
  | zeroize | seedDone | generated => exact absurd rfl he
  | _ => exact ⟨rfl, rfl⟩

theorem outputsFormatted_writeCodeOf (k : List Byte) (v : DWord) (s : State) :
    (s.writeCodeOf k v).outputsFormatted := ⟨codeFromSeed_lt k v, rfl⟩

/-- GENERATE and GENERATE_SEED without an error leave a code with its string. -/
theorem Performed.outputsFormatted (h : Performed s op u 0) (hop : op = .generate ∨ op = .generateSeed) :
    u.outputsFormatted := by
  cases h with
  | seedDone | generated => exact outputsFormatted_writeCodeOf ..
  | seedFailed _ he | generateFailed _ he => exact absurd he (by decide)
  | nop | clear | zeroize | parseFailed | parsed => exact absurd hop (by decide)

/-- A seed's code is that of its low 32 bits (42_hmac_sha1.md R162). -/
theorem codeFromSeed_congr {k : List Byte} {v w : DWord} (h : v.toNat % 2 ^ 32 = w.toNat % 2 ^ 32) :
    codeFromSeed k v = codeFromSeed k w := by
  have hlow : v.setWidth 32 = w.setWidth 32 := by
    rw [← BitVec.toNat_inj, BitVec.toNat_setWidth, h, BitVec.toNat_setWidth]
  rw [codeFromSeed, counterFrame, hlow]
  rfl

/-! ### Acceptance of a whole word -/

/-- Under all four strobes the command word is the data. -/
theorem isStrobed_all {d : Word} : IsStrobed d d 0xF := by
  have hmask : strobeMask 0xF = BitVec.allOnes 32 := by decide
  rw [isStrobed_iff, hmask, BitVec.and_allOnes]

/-! ### The operands (30_encoding.md R92) -/

/-- Two buffers that agree below `m` have the same first `m` bytes. -/
theorem toList_take_congr {n m : Nat} {x y : Vector Byte n} (h : ∀ i (hi : i < n), i < m → x[i] = y[i]) :
    x.toList.take m = y.toList.take m := by
  refine List.ext_getElem (by simp) fun i hx _ => ?_
  simp only [List.length_take, Vector.length_toList, lt_inf_iff] at hx
  simpa using h i hx.2 hx.1

theorem State.sameKeyOperands.secret_eq (h : s.sameKeyOperands t) : s.secret = t.secret := by
  rw [State.secret, State.secret, ← h.keylen]
  exact toList_take_congr h.key

theorem State.sameKeyOperands.keyPolicyFail_eq (h : s.sameKeyOperands t) : s.keyPolicyFail = t.keyPolicyFail := by
  rw [State.keyPolicyFail, h.klenChk, h.keylen, h.klenReq]
  rfl

theorem State.sameKeyOperands.keyUnusable_eq (h : s.sameKeyOperands t) : s.keyUnusable = t.keyUnusable := by
  rw [State.keyUnusable, h.keylen]
  rfl

theorem State.sameChallengeOperands.challengeText_eq (h : s.sameChallengeOperands t) :
    s.challengeText = t.challengeText := by
  rw [State.challengeText, State.challengeText, ← h.challen]
  exact toList_take_congr fun i hi hlt => h.chal i hi (lt_inf_iff.1 hlt).1

theorem State.sameChallengeOperands.chalPolicyFail_eq (h : s.sameChallengeOperands t) :
    s.chalPolicyFail = t.chalPolicyFail := by
  rw [State.chalPolicyFail, h.clenChk, h.challen, h.clenReq]
  rfl

theorem State.sameChallengeOperands.parse_eq (h : s.sameChallengeOperands t) :
    parseChallenge s.challengeText s.challen.toNat = parseChallenge t.challengeText t.challen.toNat := by
  rw [h.challengeText_eq, h.challen]

/-- Two completions that fail with the same code have the same ERRCODE, which is not 0. -/
theorem same_errcode_of_failed {P : Prop} {r r' : Result} {t' u' : State} (he : e ≠ 0) (h : r = .next (u.finished e))
    (h' : r' = .next (u'.finished e)) (hx : r = .next t) (hx' : r' = .next t') :
    t.status.errcode = t'.status.errcode ∧ (t.status.errcode = 0 → P) := by
  cases h.symm.trans hx
  cases h'.symm.trans hx'
  exact ⟨rfl, fun hok => absurd hok he⟩

end Sys2Proof.Machine
end

section
/-! PROOF. What each command's completion does and what it keeps (40_commands.md R112 to R126, 60_exceptions.md R220 to
R230). -/

namespace Sys2Proof.Machine

/-- Settles O26: each of them is the epilogue alone. -/
theorem nopClearAndIllegalChangeStatusOnly : Obligations.NopClearAndIllegalChangeStatusOnly :=
  fun s => ⟨execNop_eq s, execClear_eq s, fun _ => exec_illegal rfl, fun _ => exec_illegal rfl,
    fun _ _ => exec_illegal rfl⟩

/-- Settles O28: the epilogue after `zeroizeAll`, whose fields the state's laws give. -/
theorem zeroizeErasesInputsAndOutputs : Obligations.ZeroizeErasesInputsAndOutputs := by
  refine fun s => ⟨s.zeroizeAll.finished 0, execZeroize_eq s, fun i hi => ?_, rfl, fun i hi => ?_, rfl, rfl, rfl,
    fun i hi => ?_, rfl, rfl, rfl, rfl, rfl, rfl⟩
  · exact Vector.getElem_replicate hi
  · exact Vector.getElem_replicate hi
  · exact Vector.getElem_replicate hi

/-- Settles O29: one branch of PARSE each. -/
theorem parseStoresTheSeedOrReportsItsError : Obligations.ParseStoresTheSeedOrReportsItsError := by
  refine fun s => ⟨fun hchk hlen => ?policy, fun hok => ⟨fun hnone => ?error, fun v hsome => ?value⟩⟩
  case policy => exact exec_parse_of_chalPolicyFail (chalPolicyFail_iff.2 ⟨hchk, hlen⟩)
  case error => exact exec_parse_of_none (chalPolicyFail_eq_false_iff.2 hok) hnone
  case value => exact exec_parse_of_some (chalPolicyFail_eq_false_iff.2 hok) hsome

/-- Settles O30: one branch of GENERATE_SEED each. -/
theorem generateSeedWritesTheCodeOrReportsItsError : Obligations.GenerateSeedWritesTheCodeOrReportsItsError := by
  refine fun s => ⟨fun hchk hlen => ?policy, fun hok => ⟨fun hbad => ?keyError, fun hlo hhi => ?code⟩⟩
  case policy => exact exec_generateSeed_of_keyPolicyFail (keyPolicyFail_iff.2 ⟨hchk, hlen⟩)
  case keyError =>
    exact exec_generateSeed_of_keyUnusable (keyPolicyFail_eq_false_iff.2 hok) (keyUnusable_iff.2 hbad)
  case code =>
    exact exec_generateSeed_of_usable (keyPolicyFail_eq_false_iff.2 hok) (keyUnusable_eq_false_iff.2 ⟨hlo, hhi⟩)

/-- Settles O31: one branch of GENERATE each, in the order of its checks. -/
theorem generateWritesSeedAndCodeOrReportsItsFirstError :
    Obligations.GenerateWritesSeedAndCodeOrReportsItsFirstError := by
  refine fun s => ⟨fun hbad => ?keyPolicy, fun hkey => ⟨fun hbad => ?chalPolicy, fun hchal => ⟨fun hnone => ?parseError,
    fun v hsome => ⟨fun hbad => ?keyError, fun hgood => ?code⟩⟩⟩⟩
  case keyPolicy => exact exec_generate_of_keyPolicyFail (keyPolicyFail_iff.2 hbad)
  all_goals replace hkey := keyPolicyFail_eq_false_iff.2 hkey
  case chalPolicy => exact exec_generate_of_chalPolicyFail hkey (chalPolicyFail_iff.2 hbad)
  all_goals replace hchal := chalPolicyFail_eq_false_iff.2 hchal
  case parseError => exact exec_generate_of_none hkey hchal hnone
  case keyError => exact exec_generate_of_keyUnusable hkey hchal hsome (keyUnusable_iff.2 hbad)
  case code => exact exec_generate_of_usable hkey hchal hsome (keyUnusable_eq_false_iff.2 hgood)

/-- Settles O32: the epilogue sets PEND and DONE, and what was performed gives a produced code. -/
theorem everyCommandCompletes : Obligations.EveryCommandCompletes := by
  intro i op s hop
  obtain ⟨u, e, hx, hu⟩ := exec_command s hop
  exact ⟨u.finished e, hx, rfl, rfl, hu.produced⟩

/-- Settles O33: the frame of what was performed, which the epilogue keeps. -/
theorem commandKeepsItsFrame : Obligations.CommandKeepsItsFrame := by
  intro i op s t hop hx
  obtain ⟨u, e, hu, rfl⟩ := performed_of_exec hop hx
  obtain ⟨hctrl, hstatus, hrstN, hrdata, hevents⟩ := hu.frame
  refine ⟨hctrl, (congrArg Status.ovr hstatus :), (congrArg Status.lastop hstatus :), hrstN, hrdata, hevents,
    fun hz => ?_, hu.seed, hu.outputs, hu.outputs_of_error⟩
  obtain ⟨hkeylen, hchallen, hkey, hchal⟩ := hu.buffers hz
  exact ⟨hkeylen, hchallen, fun i hi => congrArg (·[i]) hkey, fun i hi => congrArg (·[i]) hchal⟩

/-- Settles O35: the acceptance of either command clears the outputs, and a failing completion keeps them so. -/
theorem failedGenerateLeavesNoCode : Obligations.FailedGenerateLeavesNoCode := by
  intro s t u d i hrst hidle hcmd hw hx hfail
  have hclears : Op.clearsOutputs (decodeOp d) = true ∧ i.op = some (decodeOp d) := by
    obtain ⟨rfl, rfl⟩ | ⟨rfl, rfl⟩ := hcmd <;> decide
  obtain ⟨hclears, hop⟩ := hclears
  rw [exec_wr_cmd_idle hrst hidle (by decide) isStrobed_all] at hw
  cases hw
  obtain ⟨u, e, hu, rfl⟩ := performed_of_exec hop hx
  obtain ⟨hcode, hstr⟩ := hu.outputs_of_error hfail
  rw [accept_code, if_pos hclears] at hcode
  rw [accept_codestr, if_pos hclears] at hstr
  exact ⟨hcode, fun j hj => (congrArg (·[j]) hstr).trans (Vector.getElem_replicate hj)⟩

/-- Settles O38: both take the same branch, since SEED is in none of the checks, and the code depends on the low 32
bits only. -/
theorem seedsEqualModulo32BitsGiveTheSameCode : Obligations.SeedsEqualModulo32BitsGiveTheSameCode := by
  intro s v t u hv ht hu
  cases hkey : s.keyPolicyFail with
  | true =>
    cases (exec_generateSeed_of_keyPolicyFail hkey).symm.trans ht
    cases (exec_generateSeed_of_keyPolicyFail (s := { s with seed := v }) hkey).symm.trans hu
    exact ⟨rfl, rfl, rfl⟩
  | false =>
    cases hbad : s.keyUnusable with
    | true =>
      cases (exec_generateSeed_of_keyUnusable hkey hbad).symm.trans ht
      cases (exec_generateSeed_of_keyUnusable (s := { s with seed := v }) hkey hbad).symm.trans hu
      exact ⟨rfl, rfl, rfl⟩
    | false =>
      cases (exec_generateSeed_of_usable hkey hbad).symm.trans ht
      cases (exec_generateSeed_of_usable (s := { s with seed := v }) hkey hbad).symm.trans hu
      have hcode : codeFromSeed s.secret v = codeFromSeed s.secret s.seed := codeFromSeed_congr hv
      refine ⟨hcode, congrArg formatCode hcode, ?_⟩
      simp only [State.finished_status, State.writeCodeOf_status]

/-- Settles O39: both paths store the one parsed value and write its code under the same key. -/
theorem generateIsParseThenGenerateSeed : Obligations.GenerateIsParseThenGenerateSeed := by
  intro s p g t hparse hp hseed hg hgen ht
  obtain ⟨v, hv, rfl⟩ := exec_parse_of_errcode_zero hparse hp
  obtain rfl := exec_generateSeed_of_errcode_zero hseed hg
  obtain ⟨w, hw, rfl⟩ := exec_generate_of_errcode_zero hgen ht
  obtain rfl : v = w := Option.some_inj.1 (hv.symm.trans hw)
  exact ⟨rfl, rfl, rfl⟩

/-- Settles O48: the outputs hold a code and its string, and the string is six digits that read as the code. -/
theorem successfulGenerateHasRangeAndShape : Obligations.SuccessfulGenerateHasRangeAndShape := by
  intro s t hx hok
  have hformatted : t.outputsFormatted := by
    obtain hx | hx := hx
    · obtain ⟨u, e, hu, rfl⟩ := performed_of_exec rfl hx
      obtain rfl : e = 0 := hok
      exact hu.outputsFormatted (.inl rfl)
    · obtain ⟨u, e, hu, rfl⟩ := performed_of_exec rfl hx
      obtain rfl : e = 0 := hok
      exact hu.outputsFormatted (.inr rfl)
  obtain ⟨hlt, hstr⟩ := hformatted
  obtain ⟨hdigits, hvalue⟩ := formatWritesSixDecimalDigits t.code (by omega)
  rw [hstr]
  exact ⟨by omega, fun i hi => (hdigits i hi).2, hvalue⟩

/-- PARSE on the same operands: the policy check and the parse go the same way. -/
theorem exec_parse_congr {s s' t t' : State} (hc : s.sameChallengeOperands s')
    (hx : exec .parse s = .next t) (hx' : exec .parse s' = .next t') :
    t.status.errcode = t'.status.errcode ∧ (t.status.errcode = 0 → t.seed = t'.seed) := by
  cases hchal : s.chalPolicyFail with
  | true =>
    exact same_errcode_of_failed (by decide) (exec_parse_of_chalPolicyFail hchal)
      (exec_parse_of_chalPolicyFail (hc.chalPolicyFail_eq.symm.trans hchal)) hx hx'
  | false =>
  have hchal' := hc.chalPolicyFail_eq.symm.trans hchal
  cases hparse : parseChallenge s.challengeText s.challen.toNat with
  | none =>
    exact same_errcode_of_failed (by decide) (exec_parse_of_none hchal hparse)
      (exec_parse_of_none hchal' (hc.parse_eq.symm.trans hparse)) hx hx'
  | some v =>
    cases (exec_parse_of_some hchal hparse).symm.trans hx
    cases (exec_parse_of_some hchal' (hc.parse_eq.symm.trans hparse)).symm.trans hx'
    exact ⟨rfl, fun _ => rfl⟩

/-- GENERATE_SEED on the same operands: both checks of the key go the same way, and the code is the same. -/
theorem exec_generateSeed_congr {s s' t t' : State} (hk : s.sameKeyOperands s') (hseed : s.seed = s'.seed)
    (hx : exec .generateSeed s = .next t) (hx' : exec .generateSeed s' = .next t') :
    t.status.errcode = t'.status.errcode ∧ (t.status.errcode = 0 → t.code = t'.code ∧ t.codestr = t'.codestr) := by
  cases hkey : s.keyPolicyFail with
  | true =>
    exact same_errcode_of_failed (by decide) (exec_generateSeed_of_keyPolicyFail hkey)
      (exec_generateSeed_of_keyPolicyFail (hk.keyPolicyFail_eq.symm.trans hkey)) hx hx'
  | false =>
  have hkey' := hk.keyPolicyFail_eq.symm.trans hkey
  cases hbad : s.keyUnusable with
  | true =>
    exact same_errcode_of_failed (by decide) (exec_generateSeed_of_keyUnusable hkey hbad)
      (exec_generateSeed_of_keyUnusable hkey' (hk.keyUnusable_eq.symm.trans hbad)) hx hx'
  | false =>
    cases (exec_generateSeed_of_usable hkey hbad).symm.trans hx
    cases (exec_generateSeed_of_usable hkey' (hk.keyUnusable_eq.symm.trans hbad)).symm.trans hx'
    rw [hk.secret_eq, hseed]
    exact ⟨rfl, fun _ => ⟨rfl, rfl⟩⟩

/-- GENERATE on the same operands: its four checks go the same way, and the value and its code are the same. -/
theorem exec_generate_congr {s s' t t' : State} (hk : s.sameKeyOperands s') (hc : s.sameChallengeOperands s')
    (hx : exec .generate s = .next t) (hx' : exec .generate s' = .next t') :
    t.status.errcode = t'.status.errcode ∧
      (t.status.errcode = 0 → t.seed = t'.seed ∧ t.code = t'.code ∧ t.codestr = t'.codestr) := by
  cases hkey : s.keyPolicyFail with
  | true =>
    exact same_errcode_of_failed (by decide) (exec_generate_of_keyPolicyFail hkey)
      (exec_generate_of_keyPolicyFail (hk.keyPolicyFail_eq.symm.trans hkey)) hx hx'
  | false =>
  have hkey' := hk.keyPolicyFail_eq.symm.trans hkey
  cases hchal : s.chalPolicyFail with
  | true =>
    exact same_errcode_of_failed (by decide) (exec_generate_of_chalPolicyFail hkey hchal)
      (exec_generate_of_chalPolicyFail hkey' (hc.chalPolicyFail_eq.symm.trans hchal)) hx hx'
  | false =>
  have hchal' := hc.chalPolicyFail_eq.symm.trans hchal
  cases hparse : parseChallenge s.challengeText s.challen.toNat with
  | none =>
    exact same_errcode_of_failed (by decide) (exec_generate_of_none hkey hchal hparse)
      (exec_generate_of_none hkey' hchal' (hc.parse_eq.symm.trans hparse)) hx hx'
  | some v =>
  have hparse' := hc.parse_eq.symm.trans hparse
  cases hbad : s.keyUnusable with
  | true =>
    exact same_errcode_of_failed (by decide) (exec_generate_of_keyUnusable hkey hchal hparse hbad)
      (exec_generate_of_keyUnusable hkey' hchal' hparse' (hk.keyUnusable_eq.symm.trans hbad)) hx hx'
  | false =>
    cases (exec_generate_of_usable hkey hchal hparse hbad).symm.trans hx
    cases (exec_generate_of_usable hkey' hchal' hparse' (hk.keyUnusable_eq.symm.trans hbad)).symm.trans hx'
    rw [hk.secret_eq]
    exact ⟨rfl, fun _ => ⟨rfl, rfl, rfl⟩⟩

/-- Settles O49: each command, on the same operands, takes the same branch. -/
theorem commandsDependOnTheirOperandsOnly : Obligations.CommandsDependOnTheirOperandsOnly :=
  fun _ _ _ _ => ⟨exec_generate_congr, exec_generateSeed_congr, exec_parse_congr⟩

/-- Settles O56: the epilogue sets DONE and keeps CTRL; an acceptance clears DONE. -/
theorem irqIsRaisedByCompletionWhenEnabled : Obligations.IrqIsRaisedByCompletionWhenEnabled := by
  refine ⟨fun s => rfl, fun i op s t hop hx => ?_, fun s t data be hrst hidle h0 hx => ?_⟩
  · obtain ⟨u, e, hu, rfl⟩ := performed_of_exec hop hx
    exact (Bool.and_true _).trans (congrArg Ctrl.ie hu.frame.1)
  · rw [exec_wr (by decide) hrst, busWrite_cmd_idle (by decide) hidle h0] at hx
    cases hx
    rw [State.irq, accept_status]
    exact Bool.and_false _

end Sys2Proof.Machine
end

section
/-! SUPPORT for the writes. The strobed merge by fields (20_memory.md R65), what a write to each register answers, and
all that a write can do, with what it keeps. -/

namespace Sys2Proof.Machine

variable {data : Word} {be : BitVec 4} {off : BitVec 8} {s t : State} {r : Reg}

/-! ### The strobed merge -/

/-- Without a strobe the merge keeps the old word. -/
theorem merge_zero (old data : Word) : merge old data 0 = old := by
  apply BitVec.eq_of_getLsbD_eq
  intro i hi
  rw [merge_getLsbD old data 0 hi, BitVec.ofNat_eq_ofNat, BitVec.getLsbD_zero, if_neg Bool.false_ne_true]

theorem getLsbD_extractLsb'_of_lt {n start len i : Nat} (x : BitVec n) (hi : i < len) :
    (x.extractLsb' start len).getLsbD i = x.getLsbD (start + i) := by
  rw [BitVec.getLsbD_extractLsb', decide_eq_true hi, Bool.true_and]

/-- A field that lies in one lane is the data's if the lane is strobed, else the old word's. -/
theorem merge_extractLsb' {j start len : Nat} (old data : Word) (be : BitVec 4) (hj : j < 4) (hlo : 8 * j ≤ start)
    (hhi : start + len ≤ 8 * j + 8) : (merge old data be).extractLsb' start len =
      if be.getLsbD j then data.extractLsb' start len else old.extractLsb' start len := by
  apply BitVec.eq_of_getLsbD_eq
  intro i hi
  have hlane : (start + i) / 8 = j := by omega
  rw [BitVec.getLsbD_extractLsb', merge_getLsbD old data be (by omega), hlane]
  split <;> rw [BitVec.getLsbD_extractLsb']

/-- CTRL's fields in a merged word, each under the strobe of its own lane (10_state.md R25). -/
theorem ctrlOfWord_merge (c : Ctrl) (data : Word) (be : BitVec 4) : ctrlOfWord (merge (ctrlWord c) data be) = {
    ie := if be.getLsbD 0 then data.getLsbD 0 else c.ie
    klenChk := if be.getLsbD 0 then data.getLsbD 1 else c.klenChk
    clenChk := if be.getLsbD 0 then data.getLsbD 2 else c.clenChk
    klenReq := if be.getLsbD 1 then data.extractLsb' 8 7 else c.klenReq
    clenReq := if be.getLsbD 2 then data.extractLsb' 16 6 else c.clenReq } := by
  have hc := ctrlOfWord_ctrlWord c
  have hie : (ctrlWord c).getLsbD 0 = c.ie := congrArg Ctrl.ie hc
  have hklenChk : (ctrlWord c).getLsbD 1 = c.klenChk := congrArg Ctrl.klenChk hc
  have hclenChk : (ctrlWord c).getLsbD 2 = c.clenChk := congrArg Ctrl.clenChk hc
  have hklenReq : (ctrlWord c).extractLsb' 8 7 = c.klenReq := congrArg Ctrl.klenReq hc
  have hclenReq : (ctrlWord c).extractLsb' 16 6 = c.clenReq := congrArg Ctrl.clenReq hc
  rw [ctrlOfWord, merge_getLsbD _ _ _ (by decide), merge_getLsbD _ _ _ (by decide), merge_getLsbD _ _ _ (by decide),
    merge_extractLsb' (j := 1) _ _ _ (by decide) (by decide) (by decide),
    merge_extractLsb' (j := 2) _ _ _ (by decide) (by decide) (by decide), hie, hklenChk, hclenChk, hklenReq, hclenReq]

theorem writeWord_zero {n : Nat} (buf : Vector Byte n) (w : Nat) (data : Word) : writeWord buf w data 0 = buf := rfl

/-! ### A write, register by register (20_memory.md R65) -/

theorem exec_wr_eq (ha : aligned off = true) :
    exec (.wr off data be) s = .next (if s.rstN then busWrite off data be s else s) := by
  rw [exec, execWr, if_neg (by rw [ha]; decide)]

theorem busWrite_zero : busWrite off data 0 s = s := by rw [busWrite, if_pos rfl]

theorem busWrite_ctrl_idle (hreg : regAt off = .ctrl) (hidle : s.pend = none) :
    busWrite off data be s = s.setCtrl (ctrlOfWord (merge (ctrlWord s.ctrl) data be)) := by
  by_cases hbe : be = 0
  · rw [hbe, busWrite_zero, merge_zero, ctrlOfWord_ctrlWord]
    rfl
  · simp only [busWrite, if_neg hbe, hreg, State.busy, hidle, Option.isSome_none, Bool.false_eq_true, if_false]

theorem busWrite_cmd_of_lane_zero_clear (hreg : regAt off = .cmd) (h0 : be.getLsbD 0 = false) :
    busWrite off data be s = s := by
  simp only [busWrite, hreg, h0, Bool.false_eq_true, if_false, ite_self]

/-- A W1C bit: a 1 clears, a 0 leaves (20_memory.md R66). -/
theorem and_not_eq_ite (b c : Bool) : (b && !c) = if c = true then false else b := by
  cases c
  · exact Bool.and_true b
  · exact Bool.and_false b

theorem busWrite_status (hreg : regAt off = .status) : busWrite off data be s =
    if be.getLsbD 0 then s.setStatus (s.status.w1c (data &&& strobeMask be)) else s := by
  by_cases hbe : be = 0
  · rw [hbe, busWrite_zero]
    rfl
  · simp only [busWrite, if_neg hbe, hreg]

/-- While idle a write to an input register is done. -/
theorem inputWrite_idle (f : State → State) (hidle : s.pend = none) : inputWrite f s = f s := by
  rw [inputWrite, State.busy, hidle]
  rfl

theorem busWrite_keylen_idle (hreg : regAt off = .keylen) (hidle : s.pend = none) :
    busWrite off data be s = if be.getLsbD 0 then s.setKeylen (data.extractLsb' 0 7) else s := by
  by_cases hbe : be = 0
  · rw [hbe, busWrite_zero]
    rfl
  · simp only [busWrite, if_neg hbe, hreg, inputWrite_idle _ hidle]

theorem busWrite_challen_idle (hreg : regAt off = .challen) (hidle : s.pend = none) :
    busWrite off data be s = if be.getLsbD 0 then s.setChallen (data.extractLsb' 0 6) else s := by
  by_cases hbe : be = 0
  · rw [hbe, busWrite_zero]
    rfl
  · simp only [busWrite, if_neg hbe, hreg, inputWrite_idle _ hidle]

theorem busWrite_seedLo_idle (hreg : regAt off = .seedLo) (hidle : s.pend = none) : busWrite off data be s =
    s.setSeed (s.seed.extractLsb' 32 32 ++ merge (s.seed.extractLsb' 0 32) data be) := by
  by_cases hbe : be = 0
  · rw [hbe, busWrite_zero, merge_zero, BitVec.extractLsb'_append_extractLsb']
    rfl
  · simp only [busWrite, if_neg hbe, hreg, inputWrite_idle _ hidle]

theorem busWrite_seedHi_idle (hreg : regAt off = .seedHi) (hidle : s.pend = none) : busWrite off data be s =
    s.setSeed (merge (s.seed.extractLsb' 32 32) data be ++ s.seed.extractLsb' 0 32) := by
  by_cases hbe : be = 0
  · rw [hbe, busWrite_zero, merge_zero, BitVec.extractLsb'_append_extractLsb']
    rfl
  · simp only [busWrite, if_neg hbe, hreg, inputWrite_idle _ hidle]

theorem busWrite_key_idle {w : BitVec 4} (hreg : regAt off = .key w) (hidle : s.pend = none) :
    busWrite off data be s = s.setKey (writeWord s.key w.toNat data be) := by
  by_cases hbe : be = 0
  · rw [hbe, busWrite_zero, writeWord_zero]
    rfl
  · simp only [busWrite, if_neg hbe, hreg, inputWrite_idle _ hidle]

theorem busWrite_chal_idle {w : BitVec 3} (hreg : regAt off = .chal w) (hidle : s.pend = none) :
    busWrite off data be s = s.setChal (writeWord s.chal w.toNat data be) := by
  by_cases hbe : be = 0
  · rw [hbe, busWrite_zero, writeWord_zero]
    rfl
  · simp only [busWrite, if_neg hbe, hreg, inputWrite_idle _ hidle]

/-- The read-only and the reserved registers (10_state.md R37). -/
def Reg.isReadOnly : Reg → Bool
  | .id | .param | .code | .codestr0 | .codestr1 | .reserved => true
  | .ctrl | .cmd | .status | .keylen | .challen | .seedLo | .seedHi | .key _ | .chal _ => false

theorem isReadOnly_regAt_iff (ha : aligned off = true) : (regAt off).isReadOnly = true ↔
    off = 0x00 ∨ off = 0x04 ∨ off = 0x1C ∨ off = 0x28 ∨ off = 0x2C ∨ off = 0x30 ∨ off = 0x34 ∨ off = 0x38 ∨
      off = 0x3C ∨ 0xA0 ≤ off.toNat := by
  revert off
  decide

theorem busWrite_readOnly (hreg : (regAt off).isReadOnly = true) : busWrite off data be s = s := by
  unfold busWrite
  cases h : regAt off with
  | id | param | code | codestr0 | codestr1 | reserved => exact ite_self s
  | _ =>
    rw [h] at hreg
    cases hreg

/-! ### Offsets and registers -/

/-- At another offset than a register's own stands another register. -/
theorem regAt_ne_of_offset {o : BitVec 8} (ha : aligned off = true) (hr : r.offset = some o) (hne : off ≠ o) :
    regAt off ≠ r := by
  intro h
  have hres : r ≠ .reserved := by rintro rfl; cases hr
  exact hne (Option.some_inj.1 (((regAt_eq_iff ha hres).1 h).symm.trans hr))

theorem regAt_key {w : Nat} (hw : w < 16) : aligned (BitVec.ofNat 8 (0x40 + 4 * w)) = true ∧
    regAt (BitVec.ofNat 8 (0x40 + 4 * w)) = .key (BitVec.ofNat 4 w) := by
  have hoff : (BitVec.ofNat 8 (0x40 + 4 * w)).toNat = 0x40 + 4 * w := Nat.mod_eq_of_lt (by omega)
  have ha : aligned (BitVec.ofNat 8 (0x40 + 4 * w)) = true := aligned_iff.2 (by omega)
  have hw4 : (BitVec.ofNat 4 w).toNat = w := Nat.mod_eq_of_lt hw
  exact ⟨ha, (regAt_eq_key_iff ha _).2 (by rw [hoff, hw4])⟩

theorem regAt_chal {w : Nat} (hw : w < 8) : aligned (BitVec.ofNat 8 (0x80 + 4 * w)) = true ∧
    regAt (BitVec.ofNat 8 (0x80 + 4 * w)) = .chal (BitVec.ofNat 3 w) := by
  have hoff : (BitVec.ofNat 8 (0x80 + 4 * w)).toNat = 0x80 + 4 * w := Nat.mod_eq_of_lt (by omega)
  have ha : aligned (BitVec.ofNat 8 (0x80 + 4 * w)) = true := aligned_iff.2 (by omega)
  have hw3 : (BitVec.ofNat 3 w).toNat = w := Nat.mod_eq_of_lt hw
  exact ⟨ha, (regAt_eq_chal_iff ha _).2 (by rw [hoff, hw3])⟩

/-! ### All that a write can do -/

/-- `Written off data be s t`: a write of `data` under `be` to `off` can lead from `s` to `t`, with the register at the
offset and what must hold for that effect. -/
inductive Written (off : BitVec 8) (data : Word) (be : BitVec 4) (s : State) : State → Prop
  | ignored : Written off data be s s
  | dropped (hrst : s.rstN = true) (hbusy : s.pend ≠ none)
      (hreg : (regAt off = .cmd ∧ be.getLsbD 0 = true) ∨ ((regAt off).isInput = true ∧ be ≠ 0)) :
      Written off data be s s.dropWrite
  | ctrlBusy (hrst : s.rstN = true) (hbusy : s.pend ≠ none) (hreg : regAt off = .ctrl) : Written off data be s { s with
      ctrl := { s.ctrl with ie := if be.getLsbD 0 then (data &&& strobeMask be).getLsbD 0 else s.ctrl.ie }
      status := { s.status with ovr := s.status.ovr || policyChanged s.ctrl (data &&& strobeMask be) be } }
  | ctrl (hidle : s.pend = none) (hreg : regAt off = .ctrl) (c : Ctrl) : Written off data be s (s.setCtrl c)
  | accepted (hidle : s.pend = none) (hreg : regAt off = .cmd) (h0 : be.getLsbD 0 = true) :
      Written off data be s (accept (data &&& strobeMask be) s)
  | status (hreg : regAt off = .status) (h0 : be.getLsbD 0 = true) :
      Written off data be s (s.setStatus (s.status.w1c (data &&& strobeMask be)))
  | keylen (hidle : s.pend = none) (hreg : regAt off = .keylen) (v : BitVec 7) : Written off data be s (s.setKeylen v)
  | challen (hidle : s.pend = none) (hreg : regAt off = .challen) (v : BitVec 6) :
      Written off data be s (s.setChallen v)
  | seed (hidle : s.pend = none) (hreg : regAt off = .seedLo ∨ regAt off = .seedHi) (v : DWord) :
      Written off data be s (s.setSeed v)
  | key (hidle : s.pend = none) (w : BitVec 4) (hreg : regAt off = .key w) :
      Written off data be s (s.setKey (writeWord s.key w.toNat data be))
  | chal (hidle : s.pend = none) (w : BitVec 3) (hreg : regAt off = .chal w) :
      Written off data be s (s.setChal (writeWord s.chal w.toNat data be))

theorem written_busWrite (hrst : s.rstN = true) : Written off data be s (busWrite off data be s) := by
  by_cases hbe : be = 0
  · rw [hbe, busWrite_zero]
    exact .ignored
  by_cases hro : (regAt off).isReadOnly = true
  · rw [busWrite_readOnly hro]
    exact .ignored
  by_cases hdrop : (regAt off).isInput = true ∧ s.pend ≠ none
  · rw [busWrite_input_busy hdrop.1 hdrop.2 hbe]
    exact .dropped hrst hdrop.2 (.inr ⟨hdrop.1, hbe⟩)
  have idle (hin : (regAt off).isInput = true) : s.pend = none := by_contra fun hbusy => hdrop ⟨hin, hbusy⟩
  cases hreg : regAt off with
  | id | param | code | codestr0 | codestr1 | reserved => exact absurd (congrArg Reg.isReadOnly hreg) hro
  | ctrl =>
    by_cases hp : s.pend = none
    · rw [busWrite_ctrl_idle hreg hp]
      exact .ctrl hp hreg _
    · rw [busWrite_ctrl_busy hreg hp, ctrlWriteWhileBusy_eq]
      exact .ctrlBusy hrst hp hreg
  | cmd =>
    cases h0 : be.getLsbD 0 with
    | false =>
      rw [busWrite_cmd_of_lane_zero_clear hreg h0]
      exact .ignored
    | true =>
      by_cases hp : s.pend = none
      · rw [busWrite_cmd_idle hreg hp h0]
        exact .accepted hp hreg h0
      · rw [busWrite_cmd_busy hreg hp h0]
        exact .dropped hrst hp (.inl ⟨hreg, h0⟩)
  | status =>
    rw [busWrite_status hreg]
    split
    next h0 => exact .status hreg h0
    next => exact .ignored
  | keylen =>
    have hp := idle (congrArg Reg.isInput hreg)
    rw [busWrite_keylen_idle hreg hp]
    split
    · exact .keylen hp hreg _
    · exact .ignored
  | challen =>
    have hp := idle (congrArg Reg.isInput hreg)
    rw [busWrite_challen_idle hreg hp]
    split
    · exact .challen hp hreg _
    · exact .ignored
  | seedLo =>
    have hp := idle (congrArg Reg.isInput hreg)
    rw [busWrite_seedLo_idle hreg hp]
    exact .seed hp (.inl hreg) _
  | seedHi =>
    have hp := idle (congrArg Reg.isInput hreg)
    rw [busWrite_seedHi_idle hreg hp]
    exact .seed hp (.inr hreg) _
  | key w =>
    have hp := idle (congrArg Reg.isInput hreg)
    rw [busWrite_key_idle hreg hp]
    exact .key hp w hreg
  | chal w =>
    have hp := idle (congrArg Reg.isInput hreg)
    rw [busWrite_chal_idle hreg hp]
    exact .chal hp w hreg

/-- A write as WR performs it: while rst_n is low it is ignored (70_reset_and_hazards.md R250). -/
theorem written_of_rstN (off : BitVec 8) (data : Word) (be : BitVec 4) (s : State) :
    Written off data be s (if s.rstN then busWrite off data be s else s) := by
  split
  next hrst => exact written_busWrite hrst
  next => exact .ignored

/-! ### What a write keeps -/

theorem accept_ovr {d : Word} : (accept d s).status.ovr = s.status.ovr := by
  rw [accept_status]
  rfl

theorem Written.ports (h : Written off data be s t) : t.rstN = s.rstN ∧ t.rdata = s.rdata ∧ t.events = s.events := by
  cases h with
  | accepted => exact ⟨accept_rstN _ s, accept_rdata _ s, accept_events _ s⟩
  | _ => exact ⟨rfl, rfl, rfl⟩

theorem Written.ctrl_eq (h : Written off data be s t) (hne : regAt off ≠ .ctrl) : t.ctrl = s.ctrl := by
  cases h with
  | ctrlBusy _ _ hreg | ctrl _ hreg => exact absurd hreg hne
  | accepted => exact accept_ctrl _ s
  | _ => rfl

/-- PEND, ERRCODE, LASTOP and the outputs change by acceptance only. -/
theorem Written.command_eq (h : Written off data be s t) (hne : regAt off ≠ .cmd) :
    t.pend = s.pend ∧ t.status.errcode = s.status.errcode ∧ t.status.lastop = s.status.lastop ∧ t.code = s.code ∧
      t.codestr = s.codestr := by
  cases h with
  | accepted _ hreg => exact absurd hreg hne
  | _ => exact ⟨rfl, rfl, rfl, rfl, rfl⟩

theorem Written.done_eq (h : Written off data be s t) (hcmd : regAt off ≠ .cmd) (hstatus : regAt off ≠ .status) :
    t.status.done = s.status.done := by
  cases h with
  | accepted _ hreg => exact absurd hreg hcmd
  | status hreg => exact absurd hreg hstatus
  | _ => rfl

theorem Written.ovr_eq_of_idle (h : Written off data be s t) (hne : regAt off ≠ .status) (hidle : s.pend = none) :
    t.status.ovr = s.status.ovr := by
  cases h with
  | dropped _ hbusy | ctrlBusy _ hbusy => exact absurd hidle hbusy
  | status hreg => exact absurd hreg hne
  | accepted => exact accept_ovr
  | _ => rfl

theorem Written.ovr_stays_set (h : Written off data be s t) (hne : regAt off ≠ .status) (hovr : s.status.ovr = true) :
    t.status.ovr = true := by
  cases h with
  | dropped => rfl
  | ctrlBusy => exact (congrArg (· || _) hovr).trans (Bool.true_or _)
  | status hreg => exact absurd hreg hne
  | accepted => exact accept_ovr.trans hovr
  | _ => exact hovr

theorem Written.keylen_eq (h : Written off data be s t) (hne : regAt off ≠ .keylen) : t.keylen = s.keylen := by
  cases h with
  | keylen _ hreg => exact absurd hreg hne
  | accepted => exact accept_keylen _ s
  | _ => rfl

theorem Written.challen_eq (h : Written off data be s t) (hne : regAt off ≠ .challen) : t.challen = s.challen := by
  cases h with
  | challen _ hreg => exact absurd hreg hne
  | accepted => exact accept_challen _ s
  | _ => rfl

theorem Written.seed_eq (h : Written off data be s t) (hlo : regAt off ≠ .seedLo) (hhi : regAt off ≠ .seedHi) :
    t.seed = s.seed := by
  cases h with
  | seed _ hreg => exact absurd hreg (not_or.2 ⟨hlo, hhi⟩)
  | accepted => exact accept_seed _ s
  | _ => rfl

/-- A byte of KEY outside the strobed lanes of the addressed word. -/
theorem Written.key_getElem_eq (h : Written off data be s t) (ha : aligned off = true) {i : Nat} (hi : i < 64)
    (hout : ¬(off.toNat = 0x40 + 4 * (i / 4) ∧ be.getLsbD (i % 4) = true)) : t.key[i] = s.key[i] := by
  cases h with
  | key _ w hreg =>
    have hoff := (regAt_eq_key_iff ha w).1 hreg
    refine (writeWord_getElem s.key w.toNat data be i hi).trans (if_neg fun hin => hout ⟨?_, hin.2⟩)
    rw [hoff, hin.1]
  | accepted => exact congrArg (·[i]) (accept_key _ s)
  | _ => rfl

/-- A byte of CHAL outside the strobed lanes of the addressed word. -/
theorem Written.chal_getElem_eq (h : Written off data be s t) (ha : aligned off = true) {i : Nat} (hi : i < 32)
    (hout : ¬(off.toNat = 0x80 + 4 * (i / 4) ∧ be.getLsbD (i % 4) = true)) : t.chal[i] = s.chal[i] := by
  cases h with
  | chal _ w hreg =>
    have hoff := (regAt_eq_chal_iff ha w).1 hreg
    refine (writeWord_getElem s.chal w.toNat data be i hi).trans (if_neg fun hin => hout ⟨?_, hin.2⟩)
    rw [hoff, hin.1]
  | accepted => exact congrArg (·[i]) (accept_chal _ s)
  | _ => rfl

end Sys2Proof.Machine
end

section
/-! PROOF. What a write does while idle, which writes do nothing, and the frame of every write (20_memory.md R62 to
R66). -/

namespace Sys2Proof.Machine

/-- Settles O15: CTRL is read back, merged and taken apart again, and each field lies in one lane. -/
theorem ctrlWriteWhenIdleTakesStrobedFields : Obligations.CtrlWriteWhenIdleTakesStrobedFields := by
  intro s data be hrst hidle
  rw [exec_wr (by decide) hrst, busWrite_ctrl_idle (by decide) hidle, ctrlOfWord_merge]
  rfl

/-- Settles O18: in reset every write is ignored, out of it a CMD write without lane 0. -/
theorem commandWriteWithoutLaneZeroIsIgnored : Obligations.CommandWriteWithoutLaneZeroIsIgnored := by
  intro s data be h0
  rw [exec_wr_eq (by decide), busWrite_cmd_of_lane_zero_clear (by decide) h0, ite_self]

/-- Settles O19: with lane 0 strobed the two W1C bits are the data's. -/
theorem statusWriteClearsDoneAndOvr : Obligations.StatusWriteClearsDoneAndOvr := by
  intro s data be hrst
  rw [exec_wr (by decide) hrst, busWrite_status (by decide)]
  cases h0 : be.getLsbD 0 with
  | false => simp only [Bool.false_eq_true, false_and, if_false]
  | true =>
    rw [if_pos rfl, Status.w1c, masked_getLsbD_of_strobed (by decide) h0, masked_getLsbD_of_strobed (by decide) h0,
      and_not_eq_ite, and_not_eq_ite]
    simp only [true_and]
    rfl

/-- Settles O20: both registers take the data's low bits under lane 0. -/
theorem lengthWriteWhenIdleTakesLaneZero : Obligations.LengthWriteWhenIdleTakesLaneZero := by
  intro s data be hrst hidle
  rw [exec_wr (by decide) hrst, exec_wr (by decide) hrst, busWrite_keylen_idle (by decide) hidle,
    busWrite_challen_idle (by decide) hidle]
  cases be.getLsbD 0 <;> exact ⟨rfl, rfl⟩

/-- Settles O21: SEED is its two halves side by side; one half is merged, the other one kept. -/
theorem seedWriteWhenIdleMergesStrobedLanes : Obligations.SeedWriteWhenIdleMergesStrobedLanes := by
  intro s data be hrst hidle
  constructor
  · refine ⟨s.seed.extractLsb' 32 32 ++ merge (s.seed.extractLsb' 0 32) data be, ?_, fun i hi => ?_⟩
    · rw [exec_wr (by decide) hrst, busWrite_seedLo_idle (by decide) hidle]
      rfl
    · rw [BitVec.getLsbD_append]
      by_cases hlo : i < 32
      · rw [if_pos hlo, merge_getLsbD _ _ _ hlo, getLsbD_extractLsb'_of_lt _ hlo, Nat.zero_add]
        simp only [hlo, true_and]
      · rw [if_neg hlo, getLsbD_extractLsb'_of_lt _ (by omega), Nat.add_sub_cancel' (by omega)]
        simp only [hlo, false_and, if_false]
  · refine ⟨merge (s.seed.extractLsb' 32 32) data be ++ s.seed.extractLsb' 0 32, ?_, fun i hi => ?_⟩
    · rw [exec_wr (by decide) hrst, busWrite_seedHi_idle (by decide) hidle]
      rfl
    · rw [BitVec.getLsbD_append]
      by_cases hlo : i < 32
      · rw [if_pos hlo, getLsbD_extractLsb'_of_lt _ hlo, Nat.zero_add, if_neg (by omega)]
      · have hlane : (i - 32) / 8 = i / 8 - 4 := by omega
        rw [if_neg hlo, merge_getLsbD _ _ _ (by omega), getLsbD_extractLsb'_of_lt _ (by omega),
          Nat.add_sub_cancel' (by omega), hlane]
        simp only [Nat.le_of_not_lt hlo, true_and]

/-- Settles O22: the word at the offset is word `w` of its buffer, and a strobed write of a word is known byte by
byte. -/
theorem bufferWriteWhenIdleStoresStrobedLanes : Obligations.BufferWriteWhenIdleStoresStrobedLanes := by
  refine fun s data be hrst hidle => ⟨fun w hw => ⟨writeWord s.key w data be, ?_, writeWord_getElem s.key w data be⟩,
    fun w hw => ⟨writeWord s.chal w data be, ?_, writeWord_getElem s.chal w data be⟩⟩
  · obtain ⟨ha, hreg⟩ := regAt_key hw
    have hw4 : (BitVec.ofNat 4 w).toNat = w := Nat.mod_eq_of_lt hw
    rw [exec_wr ha hrst, busWrite_key_idle hreg hidle, hw4]
    rfl
  · obtain ⟨ha, hreg⟩ := regAt_chal hw
    have hw3 : (BitVec.ofNat 3 w).toNat = w := Nat.mod_eq_of_lt hw
    rw [exec_wr ha hrst, busWrite_chal_idle hreg hidle, hw3]
    rfl

/-- Settles O23: in reset, without a strobe and at a read-only register alike, the write leaves the state. -/
theorem ignoredWriteHasNoEffect : Obligations.IgnoredWriteHasNoEffect := by
  intro s off data be ha hoff
  have hkeep : busWrite off data be s = s := by
    obtain rfl | hoff := hoff
    · exact busWrite_zero
    · exact busWrite_readOnly ((isReadOnly_regAt_iff ha).2 hoff)
  rw [exec_wr_eq ha, hkeep, ite_self]

/-- Settles O25: each field is kept by every effect but those at its own register. -/
theorem writeCompletesAndKeepsItsFrame : Obligations.WriteCompletesAndKeepsItsFrame := by
  intro s off data be ha
  have hw := written_of_rstN off data be s
  obtain ⟨hrstN, hrdata, hevents⟩ := hw.ports
  have reg {r : Reg} {o : BitVec 8} (hr : r.offset = some o) (hne : off ≠ o) : regAt off ≠ r :=
    regAt_ne_of_offset ha hr hne
  exact ⟨_, exec_wr_eq ha, hrstN, hrdata, hevents, fun h => hw.ctrl_eq (reg rfl h), fun h => hw.command_eq (reg rfl h),
    fun hc hs => hw.done_eq (reg rfl hc) (reg rfl hs), fun h => hw.ovr_eq_of_idle (reg rfl h),
    fun h => hw.ovr_stays_set (reg rfl h), fun h => hw.keylen_eq (reg rfl h), fun h => hw.challen_eq (reg rfl h),
    fun hlo hhi => hw.seed_eq (reg rfl hlo) (reg rfl hhi), fun i hi => hw.key_getElem_eq ha hi,
    fun i hi => hw.chal_getElem_eq ha hi⟩

end Sys2Proof.Machine
end

section
/-! SUPPORT for the bus. A read in and out of reset, the words a read answers by bits and by lanes (20_memory.md R60,
R64), and which transactions are refused (R62). -/

namespace Sys2Proof.Machine

variable {data : Word} {be : BitVec 4} {off : BitVec 8} {s : State}

/-! ### RD and WR, in reset or out of it -/

theorem exec_rd_eq (ha : aligned off = true) :
    exec (.rd off) s = .next (s.setRdata (if s.rstN then busRead off s else 0)) := by
  rw [exec, execRd, if_neg (by rw [ha]; decide)]

theorem exec_rd_misaligned (ha : aligned off = false) : exec (.rd off) s = .refused .misaligned := if_pos ha

theorem exec_wr_misaligned (ha : aligned off = false) : exec (.wr off data be) s = .refused .misaligned := if_pos ha

/-- A well-formed instruction is a command, or a transaction that the port can be given. -/
theorem exec_next_of_wellFormed {i : Instr} (hwf : i.wellFormed = true) (s : State) : ∃ t, exec i s = .next t := by
  have command {op : Op} (hop : i.op = some op) : ∃ t, exec i s = .next t :=
    let ⟨u, e, hx, _⟩ := exec_command s hop
    ⟨u.finished e, hx⟩
  cases i with
  | rd off => exact ⟨_, exec_rd_eq hwf⟩
  | wr off data be => exact ⟨_, exec_wr_eq hwf⟩
  | _ => exact command rfl

/-! ### The words a read answers -/

/-- A key word reads 0 (10_state.md R31). -/
theorem busRead_key {w : BitVec 4} (hreg : regAt off = .key w) : busRead off s = 0 := by rw [busRead, hreg]

theorem busRead_chal {w : BitVec 3} (hreg : regAt off = .chal w) : busRead off s = readWord s.chal w.toNat := by
  rw [busRead, hreg]

/-- The offsets of the key words (10_state.md R22). -/
theorem exists_regAt_eq_key (ha : aligned off = true) (hlo : 0x40 ≤ off.toNat) (hhi : off.toNat ≤ 0x7C) :
    ∃ w, regAt off = .key w := by
  have hmod := aligned_iff.1 ha
  have hw : (BitVec.ofNat 4 ((off.toNat - 0x40) / 4)).toNat = (off.toNat - 0x40) / 4 := Nat.mod_eq_of_lt (by omega)
  exact ⟨_, (regAt_eq_key_iff ha _).2 (by rw [hw]; omega)⟩

/-- STATUS's layout (10_state.md R27). -/
theorem statusWord_getLsbD (s : State) {i : Nat} (hi : i < 32) : (statusWord s).getLsbD i =
    if i = 0 then s.pend.isSome else if i = 1 then s.status.done else if i = 2 then s.status.errcode != 0
    else if i = 3 then s.status.ovr
    else if 8 ≤ i ∧ i ≤ 11 then s.status.errcode.getLsbD (i - 8)
    else if 12 ≤ i ∧ i ≤ 15 then s.status.lastop.getLsbD (i - 12) else false := by
  simp only [statusWord, BitVec.getLsbD_or, BitVec.getLsbD_shiftLeft, BitVec.getLsbD_setWidth, flagBit_getLsbD, hi,
    State.err, State.busy]
  interval_cases i <;> simp

/-- Lane `j` of word `w` of a buffer is its byte `4w + j` (20_memory.md R60). -/
theorem lane_readWord {n : Nat} (buf : Vector Byte n) (w : Nat) {j : Nat} (hj : j < 4) :
    lane (readWord buf w) j = buf.getD (4 * w + j) 0 := by
  obtain ⟨h0, h1, h2, h3⟩ := lane_lanes (buf.getD (4 * w) 0) (buf.getD (4 * w + 1) 0) (buf.getD (4 * w + 2) 0)
    (buf.getD (4 * w + 3) 0)
  interval_cases j
  · exact h0
  · exact h1
  · exact h2
  · exact h3

/-- Byte `i` of a buffer stands in lane `i mod 4` of word `i div 4`. -/
theorem lane_readWord_div {n i : Nat} (buf : Vector Byte n) (hi : i < n) :
    (readWord buf (i / 4)).extractLsb' (8 * (i % 4)) 8 = buf[i] := by
  have hlane := lane_readWord buf (i / 4) (Nat.mod_lt i (by decide))
  have hget : buf.getD i 0 = buf[i] := by simp [Vector.getD, hi]
  rw [Nat.div_add_mod, hget] at hlane
  exact hlane

/-- The two low bits of a word are its remainder modulo 4. -/
theorem and_three_eq_two_iff (w : Word) : w &&& 3 = 2 ↔ w.getLsbD 0 = false ∧ w.getLsbD 1 = true := by
  have hmod : (w &&& 3).toNat = w.toNat % 4 := (BitVec.toNat_and ..).trans (Nat.and_two_pow_sub_one_eq_mod _ 2)
  rw [← BitVec.toNat_inj, hmod, BitVec.getLsbD, BitVec.getLsbD, Nat.testBit_eq_decide_div_mod_eq,
    Nat.testBit_eq_decide_div_mod_eq, decide_eq_false_iff_not, decide_eq_true_iff]
  change w.toNat % 4 = 2 ↔ _
  omega

/-- What is left of a program after a POLL that read `w` (30_encoding.md R97). -/
theorem followedBy_poll {mask value w : Word} {rest : List HostItem} :
    (HostItem.poll off mask value).followedBy rest (some w) =
      if w &&& mask = value then rest else asmPoll off mask value ++ rest := by
  simp only [HostItem.followedBy, pollHolds, beq_iff_eq]
  rfl

/-- WAITDONE's condition on the word of STATUS (30_encoding.md R97). -/
theorem statusWord_and_three_eq_two_iff : statusWord s &&& 3 = 2 ↔ s.pend = none ∧ s.status.done = true := by
  rw [and_three_eq_two_iff, statusWord_getLsbD s (by decide), statusWord_getLsbD s (by decide), if_pos rfl,
    if_neg (by decide), if_pos rfl, Option.isSome_eq_false_iff, Option.isNone_iff_eq_none]

end Sys2Proof.Machine
end

section
/-! PROOF. What a read answers by bits and lanes, that it never answers KEY, which transactions are refused, and that no
instruction faults (20_memory.md R60 to R64, 10_state.md R25 to R31); and the host's POLL (30_encoding.md R97). -/

namespace Sys2Proof.Machine

/-- Settles O11: no register's word mentions KEY, and a key word's is 0. -/
theorem keyCannotBeReadBack : Obligations.KeyCannotBeReadBack := by
  intro s k off ha
  refine ⟨if s.rstN then busRead off s else 0, exec_rd_eq ha, exec_rd_eq ha, fun ⟨hlo, hhi⟩ => ?_⟩
  obtain ⟨w, hreg⟩ := exists_regAt_eq_key ha hlo hhi
  rw [busRead_key hreg, ite_self]

/-- Settles O12: an offset that is not a multiple of 4 is not aligned. -/
theorem misalignedTransactionIsRefused : Obligations.MisalignedTransactionIsRefused := by
  intro s off data be hoff
  have ha : aligned off = false := Bool.eq_false_iff.2 (mt aligned_iff.1 hoff)
  exact ⟨exec_rd_misaligned ha, exec_wr_misaligned ha⟩

/-- Settles O13: the layouts of both words. -/
theorem ctrlAndStatusReadTheirFieldsInTheirBits : Obligations.CtrlAndStatusReadTheirFieldsInTheirBits := by
  refine fun s hrst => ⟨⟨ctrlWord s.ctrl, exec_rd (by decide) hrst, fun i hi => ?_⟩,
    ⟨statusWord s, exec_rd (by decide) hrst, fun i hi => statusWord_getLsbD s hi⟩⟩
  have h14 : i < 15 ↔ i ≤ 14 := by omega
  have h21 : i < 22 ↔ i ≤ 21 := by omega
  simp only [ctrlWord_getLsbD s.ctrl hi, h14, h21]

/-- Settles O14: the offset is that of word `i div 4` of the buffer, whose lane `i mod 4` is byte `i`. -/
theorem bufferBytesReadInTheirLanes : Obligations.BufferBytesReadInTheirLanes := by
  refine fun s hrst => ⟨fun i hi => ?chal, fun i hi => ?codestr⟩
  case chal =>
    have hw : i / 4 < 8 := by omega
    have hw3 : (BitVec.ofNat 3 (i / 4)).toNat = i / 4 := Nat.mod_eq_of_lt hw
    obtain ⟨ha, hreg⟩ := regAt_chal hw
    refine ⟨readWord s.chal (i / 4), ?_, lane_readWord_div s.chal hi⟩
    rw [exec_rd ha hrst, busRead_chal hreg, hw3]
    rfl
  case codestr =>
    refine ⟨readWord s.codestr (i / 4), ?_, lane_readWord_div s.codestr hi⟩
    have hw : i / 4 < 2 := by omega
    generalize i / 4 = w at hw
    interval_cases w
    · exact exec_rd (by decide) hrst
    · exact exec_rd (by decide) hrst

/-- Settles O34: a command completes, an aligned transaction is performed, and one that is not is refused. -/
theorem wellFormedInstructionAnswersANextState : Obligations.WellFormedInstructionAnswersANextState := by
  refine ⟨fun i s hwf => exec_next_of_wellFormed hwf s, fun i s f hfault => ?_⟩
  cases hop : i.op with
  | some op =>
    obtain ⟨u, e, hx, -⟩ := exec_command s hop
    cases hfault.symm.trans hx
  | none =>
    cases i with
    | rd off =>
      cases ha : aligned off with
      | true => cases hfault.symm.trans (exec_rd_eq ha)
      | false => cases hfault.symm.trans (exec_rd_misaligned ha)
    | wr off data be =>
      cases ha : aligned off with
      | true => cases hfault.symm.trans (exec_wr_eq ha)
      | false => cases hfault.symm.trans (exec_wr_misaligned ha)
    | _ => cases hop

/-- Settles O59: the host's move on a POLL reads its offset once and goes on by its condition, which for WAITDONE is on
the two low bits of STATUS. -/
theorem pollRepeatsItsReadUntilItsConditionHolds : Obligations.PollRepeatsItsReadUntilItsConditionHolds := by
  intro s rest hrst
  have poll (off : BitVec 8) (mask value : Word) (ha : aligned off = true) :
      Session.hostMove ⟨asmPoll off mask value ++ rest, s⟩ = .next ⟨if busRead off s &&& mask = value then rest
        else asmPoll off mask value ++ rest, { s with rdata := some (busRead off s) }⟩ := by
    rw [← followedBy_poll]
    exact Session.hostMove_poll ha hrst
  refine ⟨fun off mask value ha => ⟨busRead off s, exec_rd ha hrst, poll off mask value ha⟩,
    statusWord s, exec_rd (by decide) hrst, ?_⟩
  simp only [← statusWord_and_three_eq_two_iff]
  exact poll 0x10 0x3 0x2 (by decide)

end Sys2Proof.Machine
end

section
/-! SUPPORT for HMAC's inputs: the key block of a key with zero bytes at its end, and lengths (42_hmac_sha1.md R162,
R180). -/

namespace Sys2Proof.Machine

/-- Zero bytes at the end of a key are those the key block has there. -/
theorem hmacKeyBlock_append_replicate_zero {k : List Byte} {n : Nat} (h : k.length + n ≤ 64) :
    hmacKeyBlock (k ++ List.replicate n 0) = hmacKeyBlock k := by
  have hlen : (k ++ List.replicate n (0 : Byte)).length = k.length + n := by simp
  have hfill : n + (64 - (k.length + n)) = 64 - k.length := by omega
  rw [hmacKeyBlock_eq, hmacKeyBlock_eq, if_neg (by omega), if_neg (by omega), hlen, List.append_assoc,
    List.replicate_append_replicate, hfill]

@[simp] theorem counterFrame_length (v : DWord) : (counterFrame v).length = 8 := rfl

@[simp] theorem hmacInner_length (k m : List Byte) : (hmacInner k m).length = 20 := sha1_length _

@[simp] theorem hmacSha1_length (k m : List Byte) : (hmacSha1 k m).length = 20 := sha1_length _

end Sys2Proof.Machine
end

section
/-! PROOF. Trailing zero bytes of a key, and the lengths of HMAC's two inputs (42_hmac_sha1.md R181, R182). -/

namespace Sys2Proof.Machine

/-- Settles O40: both keys have the same key block. -/
theorem trailingZeroKeyBytesDoNotMatter : Obligations.TrailingZeroKeyBytesDoNotMatter := by
  intro k m n h
  rw [hmacSha1, hmacInner, hmacKeyBlock_append_replicate_zero h]
  rfl

/-- Settles O43: 64 bytes of padded key before the frame or the inner digest, then the padding's own length. -/
theorem hmacInputsPadToTwoBlocksEach : Obligations.HmacInputsPadToTwoBlocksEach := by
  intro k seed _ _
  have hinner : (xorPad (hmacKeyBlock k) 0x36 ++ counterFrame seed).length = 72 := by
    rw [List.length_append, xorPad_length, hmacKeyBlock_length_eq, counterFrame_length]
  have houter : (xorPad (hmacKeyBlock k) 0x5C ++ hmacInner k (counterFrame seed)).length = 84 := by
    rw [List.length_append, xorPad_length, hmacKeyBlock_length_eq, hmacInner_length]
  refine ⟨hinner, ?_, houter, ?_, hmacSha1_length ..⟩
  · rw [sha1Blocks_length, sha1Pad_length, hinner]
  · rw [sha1Blocks_length, sha1Pad_length, houter]

end Sys2Proof.Machine
end

section
/-! SUPPORT for the steps. The step of each kind of input, all that a step can do, and how a step moves the flags and
KEY (20_memory.md R70, 40_commands.md R112, 10_state.md R40). -/

namespace Sys2Proof.Machine

variable {s t u : State} {rest : List Event} {r : DWord} {off : BitVec 8} {data : Word} {be : BitVec 4} {op : Op}
  {e : BitVec 4}

/-! ### The step of each kind of input -/

theorem step_txn (hev : s.events = .txn r :: rest) {i : Instr} (hd : decodeRecord r = .ok i) :
    step s = exec i (s.nextCycle rest) := by
  simp only [step, turnOf, hev, hostTurn, hd]

theorem step_txn_error (hev : s.events = .txn r :: rest) {why : DecodeError} (hd : decodeRecord r = .error why) :
    step s = .refused (.notATransaction why) := by
  simp only [step, turnOf, hev, hostTurn, hd]

theorem step_rstAssert (hev : s.events = .rstAssert :: rest) : step s = .next (s.nextCycle rest).resetAsserted := by
  simp only [step, turnOf, hev]

theorem step_rstRelease (hev : s.events = .rstRelease :: rest) :
    step s = .next ((s.nextCycle rest).setRstN true) := by
  simp only [step, turnOf, hev]

theorem step_engine_busy (hev : EngineTurn s rest) (hrst : s.rstN = true) (hpend : s.pend = some op) :
    step s = exec op.instr (s.nextCycle rest) := by
  rw [step_engine hev, hrst, hpend]

theorem step_engine_idle (hev : EngineTurn s rest) (h : s.rstN = false ∨ s.pend = none) :
    step s = .next (s.nextCycle rest) := by
  rw [step_engine hev]
  obtain h | h := h
  · rw [h]
  · rw [h]
    cases s.rstN <;> rfl

/-- Every instruction that performs an operation performs the same (40_commands.md R123). -/
theorem exec_eq_of_op {i : Instr} (hop : i.op = some op) : exec i s = exec op.instr s := by
  cases i <;> cases hop <;> rfl

/-- A step whose inputs are presentable answers a next state: no instruction faults, and none of these is refused. -/
theorem exists_step_eq_next (hin : s.inputsPresentable) : ∃ t, step s = .next t := by
  have engine {rest : List Event} (hev : EngineTurn s rest) : ∃ t, step s = .next t := by
    by_cases hbusy : s.rstN = true ∧ s.pend ≠ none
    · obtain ⟨op, hop⟩ := Option.ne_none_iff_exists'.1 hbusy.2
      obtain ⟨u, e, hx, -⟩ := exec_command (s.nextCycle rest) (op_instr op)
      exact ⟨_, (step_engine_busy hev hbusy.1 hop).trans hx⟩
    · rw [not_and_or, Bool.not_eq_true, not_not] at hbusy
      exact ⟨_, step_engine_idle hev hbusy⟩
  cases hev : s.events with
  | nil => exact engine (.inr ⟨hev, rfl⟩)
  | cons ev rest =>
    cases ev with
    | engine => exact engine (.inl hev)
    | rstAssert => exact ⟨_, step_rstAssert hev⟩
    | rstRelease => exact ⟨_, step_rstRelease hev⟩
    | txn r =>
      obtain ⟨i, hd⟩ := hin r (by rw [hev]; exact List.mem_cons_self)
      have hwf : i.wellFormed = true := by
        obtain ⟨ha, rfl | rfl⟩ := decodeRecord_ok hd
        · exact ha
        · exact ha
      rw [step_txn hev hd]
      exact exec_next_of_wellFormed hwf _

/-! ### All that a step can do -/

/-- `Stepped s t`: a step can lead from `s` to `t`. With rst_n low a write leaves the state. -/
inductive Stepped (s : State) : State → Prop
  | read {r : DWord} {rest : List Event} (hev : s.events = .txn r :: rest) (v : Word) :
      Stepped s ((s.nextCycle rest).setRdata v)
  | written {r : DWord} {rest : List Event} {off : BitVec 8} {data : Word} {be : BitVec 4} {t : State}
      (hev : s.events = .txn r :: rest) (ha : aligned off = true) (hd : decodeRecord r = .ok (.wr off data be))
      (hlow : s.rstN = false → t = s.nextCycle rest) (hw : Written off data be (s.nextCycle rest) t) : Stepped s t
  | performed {rest : List Event} {op : Op} {u : State} {e : BitVec 4} (hev : EngineTurn s rest)
      (hrst : s.rstN = true) (hpend : s.pend = some op) (hp : Performed (s.nextCycle rest) op u e) :
      Stepped s (u.finished e)
  | idle {rest : List Event} (hev : EngineTurn s rest) (h : s.rstN = false ∨ s.pend = none) :
      Stepped s (s.nextCycle rest)
  | rstAsserted {rest : List Event} (hev : s.events = .rstAssert :: rest) :
      Stepped s (s.nextCycle rest).resetAsserted
  | rstReleased {rest : List Event} (hev : s.events = .rstRelease :: rest) :
      Stepped s ((s.nextCycle rest).setRstN true)

theorem stepped_of_step (h : step s = .next t) : Stepped s t := by
  obtain ⟨r, rest, hev, -, -, rfl⟩ | ⟨r, rest, hev, ha, hd, rfl⟩ | ⟨rest, op, u, e, hev, hrst, hpend, hp, rfl⟩ |
    ⟨rest, hev, hidle, rfl⟩ | ⟨rest, hev, rfl⟩ | ⟨rest, hev, rfl⟩ := step_cases h
  · exact .read hev _
  · exact .written hev ha hd (fun hlow => if_neg (Bool.eq_false_iff.1 hlow)) (written_of_rstN _ _ _ (s.nextCycle rest))
  · exact .performed hev hrst hpend hp
  · exact .idle hev hidle
  · exact .rstAsserted hev
  · exact .rstReleased hev

theorem EngineTurn.events_tail (h : EngineTurn s rest) : rest = s.events.tail := by
  obtain h | ⟨h, rfl⟩ := h
  · rw [h]
    rfl
  · rw [h]
    rfl

/-- A step takes one input, if one is left. -/
theorem Stepped.events_eq (h : Stepped s t) : t.events = s.events.tail := by
  cases h with
  | read hev | rstAsserted hev | rstReleased hev =>
    rw [hev]
    rfl
  | written hev _ _ _ hw =>
    obtain ⟨-, -, hevents⟩ := hw.ports
    rw [hevents, hev]
    rfl
  | performed hev _ _ hp =>
    obtain ⟨-, -, -, -, hevents⟩ := hp.frame
    exact hevents.trans hev.events_tail
  | idle hev => exact hev.events_tail

/-- No step leads to a command busy while rst_n is low. -/
theorem Stepped.low_idle (h : Stepped s t) (hs : s.rstN = false → s.pend = none) :
    t.rstN = false → t.pend = none := by
  cases h with
  | read | idle => exact hs
  | written _ _ _ hlow hw =>
    intro hrst
    have hsl : s.rstN = false := hw.ports.1.symm.trans hrst
    rw [hlow hsl]
    exact hs hsl
  | performed | rstAsserted => exact fun _ => rfl
  | rstReleased => exact fun hrst => absurd hrst.symm Bool.false_ne_true

/-- With no input left a step leaves no command busy. -/
theorem Stepped.pend_eq_none (h : Stepped s t) (hev : s.events = []) (hs : s.rstN = false → s.pend = none) :
    t.pend = none := by
  cases h with
  | read hev' | written hev' | rstAsserted hev' | rstReleased hev' => cases hev.symm.trans hev'
  | performed => rfl
  | idle _ hidle => exact hidle.elim hs id

/-! ### What a write does to the flags and to KEY -/

theorem offset_eq_of_regAt {r : Reg} {o : BitVec 8} (ha : aligned off = true) (hr : r.offset = some o)
    (hreg : regAt off = r) : off = o :=
  by_contra fun hne => regAt_ne_of_offset ha hr hne hreg

/-- OVR is cleared by a W1C write of bit 3 only. -/
theorem Written.ovr_cleared (h : Written off data be s t) (hset : s.status.ovr = true)
    (hclear : t.status.ovr = false) : regAt off = .status ∧ be.getLsbD 0 = true ∧ data.getLsbD 3 = true := by
  have unchanged {P : Prop} (heq : t.status.ovr = s.status.ovr) : P :=
    absurd (hclear.symm.trans (heq.trans hset)) Bool.false_ne_true
  cases h with
  | status hreg h0 =>
    have hw1c : (s.status.ovr && !(data &&& strobeMask be).getLsbD 3) = false := hclear
    rw [hset, masked_getLsbD_of_strobed (by decide) h0, Bool.true_and, Bool.not_eq_false'] at hw1c
    exact ⟨hreg, h0, hw1c⟩
  | dropped => cases hclear
  | ctrlBusy => exact unchanged (hclear.trans (Bool.or_eq_false_iff.1 hclear).1.symm)
  | accepted => exact unchanged accept_ovr
  | _ => exact unchanged rfl

/-- OVR is set by a write that is dropped while busy, in whole or in CTRL's policy fields. -/
theorem Written.ovr_raised (h : Written off data be s t) (hclear : s.status.ovr = false)
    (hset : t.status.ovr = true) : s.rstN = true ∧ s.pend ≠ none ∧
      ((regAt off = .cmd ∧ be.getLsbD 0 = true) ∨ (be ≠ 0 ∧ (regAt off).isInput = true) ∨
        (regAt off = .ctrl ∧ policyChanged s.ctrl (data &&& strobeMask be) be = true)) := by
  have unchanged {P : Prop} (heq : t.status.ovr = s.status.ovr) : P :=
    absurd (hclear.symm.trans (heq.symm.trans hset)) Bool.false_ne_true
  cases h with
  | dropped hrst hbusy hreg => exact ⟨hrst, hbusy, hreg.imp id fun hin => .inl hin.symm⟩
  | ctrlBusy hrst hbusy hreg =>
    have hpolicy : (s.status.ovr || policyChanged s.ctrl (data &&& strobeMask be) be) = true := hset
    rw [hclear, Bool.false_or] at hpolicy
    exact ⟨hrst, hbusy, .inr (.inr ⟨hreg, hpolicy⟩)⟩
  | status =>
    have hw1c : (s.status.ovr && !(data &&& strobeMask be).getLsbD 3) = true := hset
    exact unchanged (hset.trans (Bool.and_eq_true_iff.1 hw1c).1.symm)
  | accepted => exact unchanged accept_ovr
  | _ => exact unchanged rfl

theorem accept_done {d : Word} : (accept d s).status.done = false := by
  rw [accept_status]
  rfl

/-- No write sets DONE. -/
theorem Written.done_of_done (h : Written off data be s t) (hset : t.status.done = true) : s.status.done = true := by
  cases h with
  | status =>
    have hw1c : (s.status.done && !(data &&& strobeMask be).getLsbD 1) = true := hset
    exact (Bool.and_eq_true_iff.1 hw1c).1
  | accepted => exact absurd (accept_done.symm.trans hset) Bool.false_ne_true
  | _ => exact hset

/-- DONE is cleared by an acceptance or a W1C write of bit 1. -/
theorem Written.done_cleared (h : Written off data be s t) (hset : s.status.done = true)
    (hclear : t.status.done = false) : be.getLsbD 0 = true ∧
      ((regAt off = .cmd ∧ s.pend = none ∧ t.pend ≠ none) ∨ (regAt off = .status ∧ data.getLsbD 1 = true)) := by
  cases h with
  | status hreg h0 =>
    have hw1c : (s.status.done && !(data &&& strobeMask be).getLsbD 1) = false := hclear
    rw [hset, masked_getLsbD_of_strobed (by decide) h0, Bool.true_and, Bool.not_eq_false'] at hw1c
    exact ⟨h0, .inr ⟨hreg, hw1c⟩⟩
  | accepted hidle hreg h0 =>
    rw [accept_pend]
    exact ⟨h0, .inl ⟨hreg, hidle, Option.some_ne_none _⟩⟩
  | _ => exact absurd (hclear.symm.trans hset) Bool.false_ne_true

/-- KEY is changed by an idle write to a key word only. -/
theorem Written.key_changed (h : Written off data be s t) (hne : t.key ≠ s.key) :
    s.pend = none ∧ ∃ w, regAt off = .key w := by
  cases h with
  | key hidle w hreg => exact ⟨hidle, w, hreg⟩
  | accepted => exact absurd (accept_key _ s) hne
  | _ => exact absurd rfl hne

/-- A write that finds a command busy and leaves one busy leaves the same one, and all that it reads. -/
theorem Written.sameInputs_of_busy (h : Written off data be s t) (hbusy : s.pend ≠ none) :
    s.sameInputs t ∧ t.pend = s.pend := by
  cases h with
  | ignored | dropped | ctrlBusy | status => exact ⟨⟨rfl, rfl, rfl, rfl, rfl, rfl, rfl, rfl, rfl⟩, rfl⟩
  | ctrl hidle | accepted hidle | keylen hidle | challen hidle | seed hidle | key hidle | chal hidle =>
    exact absurd hidle hbusy

end Sys2Proof.Machine
end

section
/-! PROOF. What a step is, what reset does, and how the inputs, the flags and KEY change in any step
(20_memory.md R70 to R73, 10_state.md R31, R40, 70_reset_and_hazards.md R250). -/

namespace Sys2Proof.Machine

/-- Settles O6: the host's turn is its record's transaction, or the record's refusal. -/
theorem hostStepRunsItsTransaction : Obligations.HostStepRunsItsTransaction :=
  fun _ _ _ hev => ⟨fun _ hd => step_txn hev hd, fun _ hd => step_txn_error hev hd⟩

/-- Settles O7: the engine performs the operation in PEND, whichever instruction stands for it. -/
theorem engineStepCompletesThePendingCommand : Obligations.EngineStepCompletesThePendingCommand := by
  refine fun s rest hev => ⟨fun op i hrst hpend hop => ?_, step_engine_idle hev⟩
  rw [step_engine_busy hev hrst hpend, exec_eq_of_op hop]
  rfl

/-- Settles O8: the reset state is a literal. -/
theorem resetStateHoldsTheResetValues : Obligations.ResetStateHoldsTheResetValues := by
  refine ⟨by decide, rfl, rfl, rfl, rfl, rfl, by decide, rfl, rfl, rfl, fun i hi => ?_, rfl, fun i hi => ?_, rfl, rfl,
    fun i hi => ?_, rfl, rfl, paramWord_eq⟩
  · exact Vector.getElem_replicate hi
  · exact Vector.getElem_replicate hi
  · exact Vector.getElem_replicate hi

/-- Settles O9: the falling event sets the reset record, the rising one the level. -/
theorem resetSetsTheResetRecordFromAnyState : Obligations.ResetSetsTheResetRecordFromAnyState :=
  ⟨fun _ _ hev => ⟨_, step_rstAssert hev, rfl, rfl, rfl, step_rstRelease rfl⟩,
    fun _ _ _ _ hrst ha => ⟨exec_rd_low ha hrst, exec_wr_low ha hrst⟩⟩

/-- Settles O52: a write while busy spares the inputs, a completion or a reset leaves no command busy. -/
theorem inputsStandStillWhileBusy : Obligations.InputsStandStillWhileBusy := by
  intro s t hbusy hx hbusy'
  cases stepped_of_step hx with
  | read | idle | rstReleased => exact ⟨⟨rfl, rfl, rfl, rfl, rfl, rfl, rfl, rfl, rfl⟩, rfl⟩
  | written _ _ _ _ hw =>
    obtain ⟨hinputs, hpend⟩ := hw.sameInputs_of_busy hbusy
    exact ⟨{ hinputs with }, hpend⟩
  | performed | rstAsserted => exact absurd rfl hbusy'

/-- Settles O53: of all steps only a write or a reset moves OVR. -/
theorem ovrChangesOnlyAsTheFlagTableSays : Obligations.OvrChangesOnlyAsTheFlagTableSays := by
  intro s t hx
  have unchanged {P Q : Prop} (heq : t.status.ovr = s.status.ovr) :
      (s.status.ovr = true → t.status.ovr = false → P) ∧ (s.status.ovr = false → t.status.ovr = true → Q) :=
    ⟨fun hs ht => absurd (ht.symm.trans (heq.trans hs)) Bool.false_ne_true,
      fun hs ht => absurd (hs.symm.trans (heq.symm.trans ht)) Bool.false_ne_true⟩
  cases stepped_of_step hx with
  | read | idle | rstReleased => exact unchanged rfl
  | performed _ _ _ hp =>
    obtain ⟨-, hstatus, -⟩ := hp.frame
    exact unchanged (congrArg Status.ovr hstatus :)
  | rstAsserted hev => exact ⟨fun _ _ => .inl ⟨_, hev⟩, fun _ ht => absurd ht Bool.false_ne_true⟩
  | written hev ha hd _ hw =>
    refine ⟨fun hs ht => .inr ?_, fun hs ht => ?_⟩
    · obtain ⟨hreg, h0, h3⟩ := hw.ovr_cleared hs ht
      rw [offset_eq_of_regAt ha rfl hreg] at hd
      exact ⟨_, _, _, _, hev, hd, h0, h3⟩
    · obtain ⟨hrst, hbusy, hreg⟩ := hw.ovr_raised hs ht
      refine ⟨hrst, hbusy, _, _, _, _, _, hev, hd, hreg.imp (And.imp_left (offset_eq_of_regAt ha rfl))
        (Or.imp (And.imp_right (isInput_regAt_iff ha).1) (And.imp (offset_eq_of_regAt ha rfl)
          (policyChanged_masked_iff _).1))⟩

/-- Settles O54: a completion sets DONE; of the other steps only a write or a reset moves it. -/
theorem doneChangesOnlyAsTheFlagTableSays : Obligations.DoneChangesOnlyAsTheFlagTableSays := by
  intro s t hx
  have unchanged {P Q : Prop} (heq : t.status.done = s.status.done) :
      (s.status.done = false → t.status.done = true → P) ∧ (s.status.done = true → t.status.done = false → Q) :=
    ⟨fun hs ht => absurd (hs.symm.trans (heq.symm.trans ht)) Bool.false_ne_true,
      fun hs ht => absurd (ht.symm.trans (heq.trans hs)) Bool.false_ne_true⟩
  cases stepped_of_step hx with
  | read | idle | rstReleased => exact unchanged rfl
  | performed _ _ hpend _ =>
    exact ⟨fun _ _ => ⟨hpend ▸ Option.some_ne_none _, rfl⟩, fun _ ht => absurd ht.symm Bool.false_ne_true⟩
  | rstAsserted hev => exact ⟨fun _ ht => absurd ht Bool.false_ne_true, fun _ _ => .inl ⟨_, hev⟩⟩
  | written hev ha hd _ hw =>
    refine ⟨fun hs ht => absurd (hs.symm.trans (hw.done_of_done ht)) Bool.false_ne_true, fun hs ht => .inr ?_⟩
    obtain ⟨h0, hreg⟩ := hw.done_cleared hs ht
    exact ⟨_, _, _, _, _, hev, hd, h0, hreg.imp (And.imp_left (offset_eq_of_regAt ha rfl))
      (And.imp_left (offset_eq_of_regAt ha rfl))⟩

/-- Settles O55: of the commands only ZEROIZE touches KEY, of the writes only an idle one to a key word. -/
theorem keyChangesOnlyByWriteZeroizeOrReset : Obligations.KeyChangesOnlyByWriteZeroizeOrReset := by
  intro s t hx hne
  cases stepped_of_step hx with
  | read | idle | rstReleased => exact absurd rfl hne
  | rstAsserted hev => exact .inl ⟨_, hev⟩
  | @performed _ op _ _ _ _ hpend hp =>
    by_cases hz : op = .zeroize
    · subst hz
      cases hp
      exact .inr (.inl ⟨hpend, rfl, fun i hi => Vector.getElem_replicate hi⟩)
    · obtain ⟨-, -, hkey, -⟩ := hp.buffers hz
      exact absurd hkey hne
  | written hev ha hd _ hw =>
    obtain ⟨hidle, w, hreg⟩ := hw.key_changed hne
    have hoff := (regAt_eq_key_iff ha w).1 hreg
    exact .inr (.inr ⟨hidle, _, _, _, _, _, hev, hd, by omega, by omega⟩)

/-- The end of a run: induction on the inputs left, each step taking one of them. -/
theorem run_ends (evs : List Event) (s : State) (hev : s.events = evs) (hin : s.inputsPresentable)
    (hidle : s.rstN = false → s.pend = none) :
    ∃ t, Host.Core.run Sys2Proof.core (evs.length + 1) s = .next t ∧ t.runEnded := by
  induction evs generalizing s with
  | nil =>
    obtain ⟨t, hx⟩ := exists_step_eq_next hin
    have hstep := stepped_of_step hx
    refine ⟨t, (core_run_next 0 hx).trans (core_run_zero t), ?_, hstep.pend_eq_none hev hidle⟩
    rw [hstep.events_eq, hev]
    rfl
  | cons ev rest ih =>
    obtain ⟨t, hx⟩ := exists_step_eq_next hin
    have hstep := stepped_of_step hx
    have htail : t.events = rest := by
      rw [hstep.events_eq, hev]
      rfl
    have hin' : t.inputsPresentable := by
      intro r hr
      rw [htail] at hr
      exact hin r (by rw [hev]; exact List.mem_cons_of_mem ev hr)
    rw [List.length_cons, core_run_next _ hx]
    exact ih t htail hin' (hstep.low_idle hidle)

/-- Settles O57: the run over the state's own inputs. -/
theorem everyRunOfPresentableInputsEnds : Obligations.EveryRunOfPresentableInputsEnds :=
  fun s => run_ends s.events s rfl

end Sys2Proof.Machine
end

section
/-! SUPPORT for the invariant. It speaks of PEND, STATUS, the outputs and rst_n only, so one lemma serves every effect
that spares them; the others are a reset, an acceptance and a completion (70_reset_and_hazards.md R263, R264,
43_truncate_format.md R206). -/

namespace Sys2Proof.Machine

variable {s t u : State} {off : BitVec 8} {data : Word} {be : BitVec 4} {op : Op} {e : BitVec 4}

/-- A state at reset meets the invariant: nothing is busy, DONE is 0 and the outputs are cleared. -/
theorem State.atReset.inv (h : s.atReset) : s.Inv := by
  have hpend : s.pend = none := congrArg State.pend h
  have hstatus : s.status = Status.reset := congrArg State.status h
  have hcode : s.code = 0 := congrArg State.code h
  have hstr : s.codestr = Vector.replicate 6 0 := congrArg State.codestr h
  refine ⟨fun hb => ?_, ?_, .inl ⟨hcode, hstr⟩, fun _ => ⟨hcode, hstr⟩, fun op c hp _ => ?_, fun hd _ _ => ?_,
    fun _ => h⟩
  · rw [hpend] at hb
    cases hb
  · rw [hstatus]
    exact .inl rfl
  · cases hpend.symm.trans hp
  · rw [hstatus] at hd
    cases hd

/-- The invariant is kept where PEND, ERRCODE, LASTOP and the outputs are, and DONE is not set. -/
theorem State.Inv.of_same_outcome (h : s.Inv) (hpend : t.pend = s.pend) (herr : t.status.errcode = s.status.errcode)
    (hlast : t.status.lastop = s.status.lastop) (hcode : t.code = s.code) (hstr : t.codestr = s.codestr)
    (hdone : t.status.done = true → s.status.done = true) (hlow : t.rstN = false → t.atReset) : t.Inv := by
  have hcleared : t.outputsCleared ↔ s.outputsCleared := by
    rw [State.outputsCleared, hcode, hstr, State.outputsCleared]
  have hformatted : t.outputsFormatted ↔ s.outputsFormatted := by
    rw [State.outputsFormatted, hcode, hstr, State.outputsFormatted]
  refine ⟨fun hb => ?_, ?_, ?_, ?_, ?_, fun hd he hl => ?_, hlow⟩
  · rw [hpend] at hb
    obtain ⟨hd, he⟩ := h.busy_clear hb
    exact ⟨Bool.eq_false_iff.2 fun htd => Bool.false_ne_true (hd.symm.trans (hdone htd)), herr.trans he⟩
  · rw [herr]
    exact h.errcode_produced
  · rw [hcleared, hformatted]
    exact h.outputs_agree
  · rw [hpend, hcleared]
    exact h.busy_outputs
  · rw [hpend, hlast]
    exact h.pend_lastop
  · rw [hlast] at hl
    exact hformatted.2 (h.result_marked (hdone hd) (herr.symm.trans he) hl)

/-- The ports and the inputs still to come play no part, unless rst_n falls. -/
theorem State.Inv.of_ports (h : s.Inv) {rstN : Bool} (rdata : Option Word) (events : List Event)
    (hlow : rstN = false → s.rstN = false) :
    ({ s with rstN := rstN, rdata := rdata, events := events } : State).Inv := by
  refine h.of_same_outcome rfl rfl rfl rfl rfl id fun hl => ?_
  rw [State.atReset, h.low_at_reset (hlow hl)]

/-! ### Acceptance -/

/-- A legal command's opcode is bits 3:0 of its word (30_encoding.md R91). -/
theorem low_bits_eq_of_opcode {d : Word} {c : BitVec 4} (h : Op.opcode (decodeOp d) = some c) :
    d.extractLsb' 0 4 = c := by
  by_cases hhi : d.extractLsb' 4 28 = 0
  · have small : ∀ x c : BitVec 4, Op.opcode (decodeOp (0#28 ++ x)) = some c → x = c := by decide
    rw [eq_zero_append_of_high_eq_zero hhi] at h
    exact small _ _ h
  · rw [decodeOp, if_pos hhi] at h
    cases h

/-- After an acceptance DONE and ERRCODE are 0, LASTOP is the word's opcode, and the outputs are cleared or kept. -/
theorem State.Inv.accept (h : s.Inv) (hrst : s.rstN = true) (d : Word) : (accept d s).Inv := by
  have hcleared (hclears : Op.clearsOutputs (decodeOp d) = true) : (Machine.accept d s).outputsCleared := by
    rw [State.outputsCleared, accept_code, accept_codestr, if_pos hclears, if_pos hclears]
    exact ⟨rfl, rfl⟩
  refine ⟨fun _ => ?_, ?_, ?_, fun hp => ?_, fun op c hp hc => ?_, fun hd _ _ => ?_, fun hl => ?_⟩
  · rw [accept_status]
    exact ⟨rfl, rfl⟩
  · rw [accept_status]
    exact .inl rfl
  · cases hclears : Op.clearsOutputs (decodeOp d) with
    | true => exact .inl (hcleared hclears)
    | false =>
      rw [State.outputsCleared, State.outputsFormatted, accept_code, accept_codestr, hclears]
      exact h.outputs_agree
  · rw [accept_pend, Option.some_inj, Option.some_inj, Option.some_inj] at hp
    exact hcleared (Op.clearsOutputs_iff.2 hp)
  · rw [accept_pend, Option.some_inj] at hp
    rw [← hp] at hc
    rw [accept_status]
    exact low_bits_eq_of_opcode hc
  · exact absurd (accept_done.symm.trans hd) Bool.false_ne_true
  · rw [accept_rstN, hrst] at hl
    cases hl

theorem Written.inv (hw : Written off data be s t) (h : s.Inv) (hrst : s.rstN = true) : t.Inv := by
  have hlow (hl : t.rstN = false) : t.atReset :=
    absurd (hl.symm.trans (hw.ports.1.trans hrst)) Bool.false_ne_true
  have hdone := hw.done_of_done
  cases hw with
  | accepted => exact h.accept hrst _
  | _ => exact h.of_same_outcome rfl rfl rfl rfl rfl hdone hlow

/-! ### Completion -/

/-- What a command performs leaves the outputs as they were, cleared, or a code and its string. -/
theorem Performed.outputs_agree (hp : Performed s op u e) (h : s.Inv) : u.outputsCleared ∨ u.outputsFormatted := by
  cases hp with
  | zeroize => exact .inl ⟨rfl, rfl⟩
  | seedDone | generated => exact .inr (outputsFormatted_writeCodeOf ..)
  | _ => exact h.outputs_agree

/-- LASTOP tells which command completes, so a result marked by it is one that GENERATE or GENERATE_SEED wrote. -/
theorem Performed.inv (hp : Performed s op u e) (h : s.Inv) (hrst : s.rstN = true) (hpend : s.pend = some op) :
    (u.finished e).Inv := by
  obtain ⟨-, hstatus, hrstN, -, -⟩ := hp.frame
  have hop (he : e = 0) (hlast : s.status.lastop = 1 ∨ s.status.lastop = 2) : op = .generate ∨ op = .generateSeed := by
    have opcode {c : BitVec 4} (hc : Op.opcode op = some c) : c = 1 ∨ c = 2 := by
      rwa [h.pend_lastop op c hpend hc] at hlast
    cases op with
    | generate => exact .inl rfl
    | generateSeed => exact .inr rfl
    | nop | parse | clear | zeroize => exact absurd (opcode rfl) (by decide)
    | illegal =>
      cases hp
      exact absurd he (by decide)
  refine ⟨fun hb => ?_, hp.produced, hp.outputs_agree h, fun hb => ?_, fun _ _ hb => ?_, fun _ he hlast => ?_,
    fun hl => ?_⟩
  · cases hb
  · obtain hb | hb | hb := hb <;> cases hb
  · cases hb
  · obtain rfl : e = 0 := he
    exact hp.outputsFormatted (hop rfl (by rwa [← hstatus]))
  · exact absurd (hl.symm.trans (hrstN.trans hrst)) Bool.false_ne_true

end Sys2Proof.Machine
end

section
/-! PROOF. The invariant holds at reset and every step keeps it. -/

namespace Sys2Proof.Machine

/-- Settles O51: the reset state is at reset. -/
theorem resetStateMeetsTheInvariant : Obligations.ResetStateMeetsTheInvariant := State.atReset.inv rfl

/-- Settles O50: by the kinds of step. A read, an idle turn and the rise of rst_n touch the ports only; a write is
ignored in reset, else it accepts a command or spares what the invariant speaks of. -/
theorem everyStepKeepsTheInvariant : Obligations.EveryStepKeepsTheInvariant := by
  intro s t h hx
  have hcycle (rest : List Event) : (s.nextCycle rest).Inv := h.of_ports none rest id
  cases stepped_of_step hx with
  | read _ v => exact h.of_ports (some v) _ id
  | @written _ rest _ _ _ _ _ _ _ hlow hw =>
    cases hrst : s.rstN with
    | false =>
      rw [hlow hrst]
      exact hcycle rest
    | true => exact hw.inv (hcycle rest) hrst
  | performed _ hrst hpend hp => exact hp.inv (hcycle _) hrst hpend
  | idle => exact hcycle _
  | rstAsserted => exact State.atReset.inv rfl
  | rstReleased => exact h.of_ports none _ fun hl => absurd hl.symm Bool.false_ne_true

end Sys2Proof.Machine
end
